-- ==== Sys2Proof/Word.lean ====
section
/-! DEFINITION. The words of the block: bytes, registers, colours, command and response words. -/

namespace Sys2Proof

/-- A byte of a buffer, a pulse-width code, a byte on a stream (R9, R60). -/
abbrev Byte := BitVec 8

/-- A ring-buffer cursor or count register: 16 bits (R22, R28, R32; D4). -/
abbrev Cursor := BitVec 16

/-- A register of the LED descriptor: 21 bits (R39; D4). -/
abbrev LedCount := BitVec 21

/-- The 24-bit colour operand: green [23:16], red [15:8], blue [7:0] (R64). -/
abbrev Colour := BitVec 24

/-- A command word (R90). -/
abbrev Cmd := BitVec 48

/-- A response word (R93). -/
abbrev Rsp := BitVec 20

end Sys2Proof
end

