-- ==== Sys2Proof/Config.lean ====
section
/-! DEFINITION. What an implementation fixes (R7, R8) and the values the spec leaves free (U7, U9). -/

namespace Sys2Proof

/-- A value of the pulse generator's phase counter: the spec gives it no width and no values, only that there is one named
idle value (R38, D16). No operation looks inside. -/
structure Phase where
  tag : Nat
deriving DecidableEq, Repr, Inhabited

/-- The parameters of R7. They are plain data which State carries and no step writes (log 1). -/
structure Config where
  /-- `N_RB`, the capacity of the ring buffer of `RB`. -/
  nRb : Nat
  /-- `N_TX`. -/
  nTx : Nat
  /-- `N_RX`. -/
  nRx : Nat
  /-- `L`, the strip length: `LED.enc` has `24·L` bytes. -/
  stripLength : Nat
  /-- `CODE0`, the "logical zero" pulse-width code. -/
  code0 : Byte
  /-- `CODE1`, the "logical one" pulse-width code. -/
  code1 : Byte
  /-- `PHASE_IDLE`, the "safe idle value" of the phase counter. -/
  phaseIdle : Phase
  /-- `PERIOD`; a label, no rule reads it. -/
  period : Nat
  /-- `F_CLK`; a label, no rule reads it. -/
  fClk : Nat
  /-- `DEST_TX`; a label, no rule reads it. -/
  destTx : Nat
  /-- `SRC_RX`; a label, no rule reads it. -/
  srcRx : Nat
deriving DecidableEq, Repr

/-- The constraints of R8 on the parameters. -/
abbrev Config.Valid (c : Config) : Prop :=
  (2 ≤ c.nRb ∧ c.nRb ≤ 65535) ∧ (2 ≤ c.nTx ∧ c.nTx ≤ 65535) ∧ (2 ≤ c.nRx ∧ c.nRx ≤ 65535) ∧
    (1 ≤ c.stripLength ∧ c.stripLength ≤ 65536) ∧ c.code0 ≠ c.code1

/-- `24·L`, the size of the encode buffer (R34). -/
def Config.frameBytes (c : Config) : Nat := 24 * c.stripLength

/-- The four memories of R60. -/
inductive MemId where
  | rb
  | tx
  | rx
  | led
deriving DecidableEq, Repr

/-- The byte an index of a memory holds after the `epoch`-th reset until something writes it (U7: "drawn once at reset").
It has no body: nothing can be proved about it (log 2). -/
opaque Config.freeByte : (epoch : Nat) → MemId → (index : Nat) → Byte

/-- The value an `XLED` step leaves in the phase counter (U9), one draw a step. It has no body (log 3). -/
opaque Config.freePhase : (draw : Nat) → Phase

end Sys2Proof
end

