-- ==== Sys2Proof/Machine/Params.lean ====
section
/-! DEFINITION. The parameters of the machine that State.reset describes. -/

namespace Sys2Proof.Machine

/-- The parameters State.reset carries. DESIGN CHOICE (log 1): the spec gives no values; these are the largest sizes R8 admits, so
that no command word is Illegal by value, and codes and labels of no meaning. Statements are made for every valid Config. -/
def resetConfig : Config :=
  { nRb := 65535, nTx := 65535, nRx := 65535, stripLength := 65536,
    code0 := 0x55#8, code1 := 0xAA#8, phaseIdle := ⟨1⟩, period := 1, fClk := 1, destTx := 0, srcRx := 0 }

end Sys2Proof.Machine
end

