-- ==== Sys2Proof/Syntax.lean ====
section
/-! DEFINITION. The sixteen operations of R96, one constructor for each row of the opcode table. -/

namespace Sys2Proof

/-- An operation with its operands (R92, R96, R103). -/
inductive Instr where
  /-- `RB.PUSH b`, R128. -/
  | rbPush (b : Byte)
  /-- `RB.POP`, R129. -/
  | rbPop
  /-- `RB.AVAIL`, R130. -/
  | rbAvail
  /-- `RB.ISEMPTY`, R131. -/
  | rbIsEmpty
  /-- `RB.ISFULL`, R132. -/
  | rbIsFull
  /-- `TX.ENQ b`, R145. -/
  | txEnq (b : Byte)
  /-- `TX.START`, R146. -/
  | txStart
  /-- `TX.EVT`, R149. -/
  | txEvt
  /-- `RX.START`, R163. -/
  | rxStart
  /-- `RX.STOP`, R164. -/
  | rxStop
  /-- `RX.AVAIL`, R165. -/
  | rxAvail
  /-- `RX.READ`, R166. -/
  | rxRead
  /-- `LED.CLEAR`, R187. -/
  | ledClear
  /-- `LED.WRITE idx, c`, R188. -/
  | ledWrite (idx : BitVec 16) (c : Colour)
  /-- `LED.UPDATE`, R189. -/
  | ledUpdate
  /-- `LED.EVT`, R190. -/
  | ledEvt
deriving DecidableEq, Repr

end Sys2Proof
end

