-- ==== Sys2Proof/WellFormed.lean ====
section
/-! DEFINITION. Which instructions a block with given parameters has. -/

namespace Sys2Proof

/-- The one check on operands: the index of `LED.WRITE` is below `L` (R100). Every other operand is any value of its field (R103). -/
def Instr.wellFormed (cfg : Config) : Instr → Bool
  | .ledWrite idx _ => decide (idx.toNat < cfg.stripLength)
  | .rbPush _ => true
  | .rbPop => true
  | .rbAvail => true
  | .rbIsEmpty => true
  | .rbIsFull => true
  | .txEnq _ => true
  | .txStart => true
  | .txEvt => true
  | .rxStart => true
  | .rxStop => true
  | .rxAvail => true
  | .rxRead => true
  | .ledClear => true
  | .ledUpdate => true
  | .ledEvt => true

end Sys2Proof
end

