-- ==== Sys2Proof/Decode.lean ====
section
/-! DEFINITION. Command words (R90 to R103): the decoder, total on all 48-bit words, and the encoder. -/

namespace Sys2Proof

/-- Why a word is `Illegal`. The block answers the same for all three (R101); the names are for the reader. -/
inductive Illegal where
  /-- The opcode byte is none of the 16 (R98). -/
  | noSuchOperation
  /-- A must-be-zero field is not zero (R99). -/
  | operandFieldNotZero
  /-- `LED.WRITE` with `idx ≥ L` (R100). -/
  | ledIndexOutOfRange
deriving DecidableEq, Repr

/-- R97: a word decodes to exactly one operation with its operands, or to `Illegal`. -/
inductive Decoded where
  | instr (i : Instr)
  | illegal (why : Illegal)
deriving DecidableEq, Repr

/-- `cmd[47:40]`, the `unit` and `fn` fields together (R91). -/
def opcodeByte (w : Cmd) : BitVec 8 := w.extractLsb' 40 8

/-- `cmd[39:24]`, the `idx` field (R91). -/
def idxField (w : Cmd) : BitVec 16 := w.extractLsb' 24 16

/-- `cmd[23:0]`, the `data` field (R91); the colour operand of format `C` (R103). -/
def dataField (w : Cmd) : Colour := w.extractLsb' 0 24

/-- `cmd[7:0]`, the byte operand of format `B` (R103). -/
def byteField (w : Cmd) : Byte := w.extractLsb' 0 8

/-- Format `N`: `cmd[39:0]` must be zero (R92, R99). -/
def formatN (w : Cmd) (i : Instr) : Decoded :=
  if w.extractLsb' 0 40 = 0#40 then .instr i else .illegal .operandFieldNotZero

/-- Format `B`: `cmd[39:8]` must be zero, `cmd[7:0]` is the byte (R92, R99). -/
def formatB (w : Cmd) (f : Byte → Instr) : Decoded :=
  if w.extractLsb' 8 32 = 0#32 then .instr (f (byteField w)) else .illegal .operandFieldNotZero

/-- Format `C`: the index must be below `L` (R92, R100). -/
def formatC (cfg : Config) (w : Cmd) (f : BitVec 16 → Colour → Instr) : Decoded :=
  if (idxField w).toNat < cfg.stripLength then .instr (f (idxField w) (dataField w)) else .illegal .ledIndexOutOfRange

/-- R97: take the opcode byte, find its row in R96, apply the row's format. -/
def decode (cfg : Config) (w : Cmd) : Decoded :=
  match (opcodeByte w).toNat with
  | 0x00 => formatB w .rbPush
  | 0x01 => formatN w .rbPop
  | 0x02 => formatN w .rbAvail
  | 0x03 => formatN w .rbIsEmpty
  | 0x04 => formatN w .rbIsFull
  | 0x10 => formatB w .txEnq
  | 0x11 => formatN w .txStart
  | 0x12 => formatN w .txEvt
  | 0x20 => formatN w .rxStart
  | 0x21 => formatN w .rxStop
  | 0x22 => formatN w .rxAvail
  | 0x23 => formatN w .rxRead
  | 0x30 => formatN w .ledClear
  | 0x31 => formatC cfg w .ledWrite
  | 0x32 => formatN w .ledUpdate
  | 0x33 => formatN w .ledEvt
  | _ => .illegal .noSuchOperation

/-- The opcode byte of an operation (R96). -/
def Instr.opcode : Instr → BitVec 8
  | .rbPush _ => 0x00#8
  | .rbPop => 0x01#8
  | .rbAvail => 0x02#8
  | .rbIsEmpty => 0x03#8
  | .rbIsFull => 0x04#8
  | .txEnq _ => 0x10#8
  | .txStart => 0x11#8
  | .txEvt => 0x12#8
  | .rxStart => 0x20#8
  | .rxStop => 0x21#8
  | .rxAvail => 0x22#8
  | .rxRead => 0x23#8
  | .ledClear => 0x30#8
  | .ledWrite _ _ => 0x31#8
  | .ledUpdate => 0x32#8
  | .ledEvt => 0x33#8

/-- The `idx` field of an operation's word: zero but for `LED.WRITE` (R91). -/
def Instr.idxBits : Instr → BitVec 16
  | .ledWrite idx _ => idx
  | .rbPush _ => 0#16
  | .rbPop => 0#16
  | .rbAvail => 0#16
  | .rbIsEmpty => 0#16
  | .rbIsFull => 0#16
  | .txEnq _ => 0#16
  | .txStart => 0#16
  | .txEvt => 0#16
  | .rxStart => 0#16
  | .rxStop => 0#16
  | .rxAvail => 0#16
  | .rxRead => 0#16
  | .ledClear => 0#16
  | .ledUpdate => 0#16
  | .ledEvt => 0#16

/-- The `data` field of an operation's word: the byte of format `B`, the colour of format `C`, else zero (R91). -/
def Instr.dataBits : Instr → Colour
  | .rbPush b => b.setWidth 24
  | .txEnq b => b.setWidth 24
  | .ledWrite _ c => c
  | .rbPop => 0#24
  | .rbAvail => 0#24
  | .rbIsEmpty => 0#24
  | .rbIsFull => 0#24
  | .txStart => 0#24
  | .txEvt => 0#24
  | .rxStart => 0#24
  | .rxStop => 0#24
  | .rxAvail => 0#24
  | .rxRead => 0#24
  | .ledClear => 0#24
  | .ledUpdate => 0#24
  | .ledEvt => 0#24

/-- The command word of an operation: opcode byte, `idx`, `data` (R91). -/
def encode (i : Instr) : Cmd := i.opcode ++ i.idxBits ++ i.dataBits

/-- A row of the opcode table read as match and mask over the whole word (R96). -/
structure Row where
  mask : Cmd
  pattern : Cmd
deriving DecidableEq, Repr

/-- The row of an operation: the mask is all of the word in format `N`, all but the byte in format `B`, the opcode byte in format `C`. -/
def Instr.row : Instr → Row
  | .rbPush _ => ⟨0xFFFFFFFFFF00#48, 0x000000000000#48⟩
  | .rbPop => ⟨0xFFFFFFFFFFFF#48, 0x010000000000#48⟩
  | .rbAvail => ⟨0xFFFFFFFFFFFF#48, 0x020000000000#48⟩
  | .rbIsEmpty => ⟨0xFFFFFFFFFFFF#48, 0x030000000000#48⟩
  | .rbIsFull => ⟨0xFFFFFFFFFFFF#48, 0x040000000000#48⟩
  | .txEnq _ => ⟨0xFFFFFFFFFF00#48, 0x100000000000#48⟩
  | .txStart => ⟨0xFFFFFFFFFFFF#48, 0x110000000000#48⟩
  | .txEvt => ⟨0xFFFFFFFFFFFF#48, 0x120000000000#48⟩
  | .rxStart => ⟨0xFFFFFFFFFFFF#48, 0x200000000000#48⟩
  | .rxStop => ⟨0xFFFFFFFFFFFF#48, 0x210000000000#48⟩
  | .rxAvail => ⟨0xFFFFFFFFFFFF#48, 0x220000000000#48⟩
  | .rxRead => ⟨0xFFFFFFFFFFFF#48, 0x230000000000#48⟩
  | .ledClear => ⟨0xFFFFFFFFFFFF#48, 0x300000000000#48⟩
  | .ledWrite _ _ => ⟨0xFF0000000000#48, 0x310000000000#48⟩
  | .ledUpdate => ⟨0xFFFFFFFFFFFF#48, 0x320000000000#48⟩
  | .ledEvt => ⟨0xFFFFFFFFFFFF#48, 0x330000000000#48⟩

/-- The command word whose bits are `w` below `nbits` and zero above, numbered as the opcode table numbers them (R91). -/
def tableWord (nbits w : Nat) : Cmd := BitVec.ofNat 48 (w % 2 ^ nbits)

/-- What the decoder reads from that word, with the parameters State.reset carries (log 1); none where it refuses, or where the
bits do not fit a command word. -/
def decodeTableWord (nbits w : Nat) : Option Instr :=
  if w % 2 ^ nbits < 2 ^ 48 then
    match decode Machine.resetConfig (tableWord nbits w) with
    | .instr i => some i
    | .illegal _ => none
  else none

end Sys2Proof
end

