-- ==== Sys2Proof/Machine/State.lean ====
section
/-! DEFINITION. The state of the machine (R20, R47, R72), its stops, and its reset (R48). -/

namespace Sys2Proof.Machine

/-- A byte memory: pairs of an index and the byte WRITTEN there since reset, indices strictly rising. An index that is not
listed has not been written since reset; what it reads as is Config.freeByte (U7, log 2). -/
abbrev Memory := List Host.Cell

/-- Unit `RB` (R21 to R23). -/
structure Rb where
  mem : Memory
  /-- next write index -/
  head : Cursor
  /-- next read index -/
  tail : Cursor
deriving DecidableEq, Repr

/-- Unit `TX` (R25 to R28). -/
structure Tx where
  mem : Memory
  head : Cursor
  tail : Cursor
  /-- the "transfer active" hardware flag -/
  active : Bool
  /-- the transfer-complete flag: the completion event is pending -/
  tc : Bool
  /-- descriptor: index of the next byte the engine moves -/
  src : Cursor
  /-- descriptor: bytes of the committed run still to move -/
  cnt : Cursor
deriving DecidableEq, Repr

/-- Unit `RX` (R30 to R32). There is no head register. -/
structure Rx where
  mem : Memory
  tail : Cursor
  /-- the free-running transfer is enabled -/
  run : Bool
  /-- the remaining-transfer-count register -/
  rem : Cursor
deriving DecidableEq, Repr

/-- Unit `LED` (R34 to R39). -/
structure Led where
  /-- the encode buffer, one pulse-width code a byte -/
  enc : Memory
  /-- the "frame in flight" flag -/
  inflight : Bool
  /-- the transfer-complete flag: the completion event is pending -/
  tc : Bool
  /-- the one-shot transfer engine is enabled -/
  xferEn : Bool
  /-- the pulse generator is enabled -/
  genEn : Bool
  /-- the generator's phase counter -/
  phase : Phase
  /-- descriptor: index of the next code to emit -/
  pos : LedCount
  /-- descriptor: codes of the frame still to emit -/
  cnt : LedCount
deriving DecidableEq, Repr

/-- An element of `LED.out` (R47): the mark of a started frame, or the code of one pulse. -/
inductive LedMark where
  | frame
  | pulse (code : Byte)
deriving DecidableEq, Repr

/-- The two completion events (R208). -/
inductive Event where
  | tx
  | led
deriving DecidableEq, Repr

/-- Where `HOST` stands (R72, R73): idle, or inside an operation and about to take the micro-step its rule labels `sK`, with the
local values that step and the later ones use. `ledClearAt i` is about to take `s(i+1)`, `ledWriteAt idx c b` is about to take `s(b+1)`. -/
inductive HostPos where
  | idle
  | rbPushS2 (h : Cursor) (b : Byte)
  | rbPushS3 (h : Cursor)
  | rbPopS2 (t : Cursor)
  | rbPopS3 (t : Cursor) (v : Byte)
  | txEnqS2 (h : Cursor) (b : Byte)
  | txEnqS3 (h : Cursor)
  | txStartS2
  | txStartS3 (t : Cursor) (r : Cursor)
  | txStartS4 (t : Cursor) (r : Cursor)
  | txStartS5
  | rxStartS2
  | rxStartS3
  | rxStartS4
  | rxAvailS2 (m : Cursor)
  | rxReadS2 (t : Cursor) (v : Byte)
  | ledClearAt (i : Nat)
  | ledWriteAt (idx : BitVec 16) (c : Colour) (b : Nat)
  | ledUpdateS2
  | ledUpdateS3
  | ledUpdateS4
  | ledUpdateS5
deriving DecidableEq, Repr

/-- Whose step comes next (R72 to R75, R208, R230). A turn whose agent has no step enabled passes and changes nothing (log 4). -/
inductive Turn where
  /-- `HOST` takes one micro-step: the next of the operation it is in, or the first of its next command (R73). -/
  | host
  /-- `HOST`, idle, presents its next command and runs it to its return, no other agent stepping in between: the micro-steps
  of one operation taken one after the other (log 5). -/
  | hostOp
  /-- `EVT` invokes an entry point: one atomic step (R74). -/
  | evt (e : Event)
  /-- The `TX` engine moves one byte (R150). -/
  | xtx
  /-- The `RX` engine moves one byte (R167). -/
  | xrx
  /-- The `LED` engine emits one pulse (R192). -/
  | xled
  /-- `ENV` extends `RX.in` by one byte (R72). -/
  | supply (b : Byte)
  /-- `ENV` asserts reset (R230). -/
  | reset
deriving DecidableEq, Repr

/-- The whole machine's state (R20, R47, R72), and the model's own records and inputs. -/
structure State where
  /-- the parameters of R7; no step writes them (log 1) -/
  cfg : Config
  rb : Rb
  tx : Tx
  rx : Rx
  led : Led
  /-- `TX.out`, oldest first (R47) -/
  txOut : List Byte
  /-- `RX.in`, the next byte first (R47) -/
  rxIn : List Byte
  /-- `LED.out`, oldest first (R47) -/
  ledOut : List LedMark
  /-- the response words given, oldest first (R90, log 11) -/
  answers : List Rsp
  /-- where `HOST` stands (R72) -/
  host : HostPos
  /-- the command words `HOST` is going to present, the next first (log 15) -/
  program : List Cmd
  /-- the turns to come, the next first (log 4) -/
  sched : List Turn
  /-- how many resets there have been: which draw unwritten bytes read as (log 2) -/
  epoch : Nat
  /-- how many free values the phase counter has taken (log 3) -/
  draws : Nat
deriving DecidableEq, Repr

/-- Why the machine stops with a fault. -/
inductive Fault where
  /-- `RB.POP` on an empty buffer: "undefined" in R129, to be a fault by U1. Raised by the meaning and the first micro-step of
  `RB.POP`. Safe: the model stops where the spec gives no value and no cursor change (log 6). -/
  | popEmpty
  /-- An index outside a buffer. R12: no rule produces one. Raised by the byte accesses of Machine/Ops.lean, and by no state that
  satisfies the invariant of Safety.lean. Safe (log 8). -/
  | noSuchByte
deriving DecidableEq, Repr

/-- Why a command has no meaning. -/
inductive Refusal where
  /-- An instruction whose arm in exec has no meaning yet. None is left. Safe. -/
  | notModelled (mnemonic : String)
  /-- `RX.START` while Running: "UNDEFINED" in R163, to be refused by U3. Raised by the meaning and the first micro-step of
  `RX.START`. Safe: the model stops where the spec gives no effect (log 7). -/
  | rxStartWhileRunning
deriving DecidableEq, Repr

/-- The state after reset of a block with given parameters (R48, R231): every unit's registers at the value R48 lists, no byte of
any memory written, the streams empty, `HOST` idle. The last six fields are no registers: empty and 0 (logs 2, 3, 4, 10, 11, 15). -/
def State.resetWith (cfg : Config) : State :=
  { cfg := cfg
    rb := { mem := [], head := 0#16, tail := 0#16 }
    tx := { mem := [], head := 0#16, tail := 0#16, active := false, tc := false, src := 0#16, cnt := 0#16 }
    rx := { mem := [], tail := 0#16, run := false, rem := BitVec.ofNat 16 cfg.nRx }
    led := { enc := [], inflight := false, tc := false, xferEn := false, genEn := false, phase := cfg.phaseIdle,
             pos := 0#21, cnt := 0#21 }
    txOut := []
    ledOut := []
    host := .idle
    rxIn := []
    answers := []
    program := []
    sched := []
    epoch := 0
    draws := 0 }

/-- The machine right after reset (R48), with the parameters of Machine/Params.lean (log 1). -/
def State.reset : State := State.resetWith resetConfig

end Sys2Proof.Machine
end

