-- ==== Sys2Proof/Machine/Cursor.lean ====
section
/-! DEFINITION. The cursor arithmetic of R120, in the closed forms R120 and R127 give. Operands are unbounded numbers (R9). -/

namespace Sys2Proof.Machine

/-- `inc(i) = (i + 1) mod N` (R120): `0` when `i == N − 1` and `i + 1` otherwise. -/
def inc (n i : Nat) : Nat := if i + 1 = n then 0 else i + 1

/-- `dist(h, t) = (h − t) mod N` of R120: `h − t` when `h ≥ t` and `h + N − t` when `h < t`. -/
def cursorDist (n h t : Nat) : Nat := if t ≤ h then h - t else h + n - t

/-- `run(h, t) = min(dist(h, t), N − t)` (R120): the contiguous run from `t`. -/
def run (n h t : Nat) : Nat := min (cursorDist n h t) (n - t)

/-- The virtual head `(N − rem) mod N` of `RX` (R161). -/
def vhead (n rem : Nat) : Nat := (n - rem) % n

/-- `inc` on a cursor register. The sum does not wrap at 16 bits before it is reduced (R127). -/
def incCursor (n : Nat) (c : Cursor) : Cursor := BitVec.ofNat 16 (inc n c.toNat)

end Sys2Proof.Machine
end

