-- ==== Sys2Proof/Machine/Flags.lean ====
section
/-! DEFINITION. The conditions that are computed and never stored (R44), the result statuses (R94, R201) and the response word (R93). -/

namespace Sys2Proof.Machine

/-- `empty`: `head == tail` (R44, R121). -/
def isEmpty (h t : Cursor) : Bool := h == t

/-- `full`: `(head + 1) mod N == tail` (R44, R121). -/
def isFull (n : Nat) (h t : Cursor) : Bool := inc n h.toNat == t.toNat

/-- The value of a truth value: 1 for true, 0 for false (R95). -/
def truthValue (b : Bool) : BitVec 16 := if b then 1#16 else 0#16

/-- The result statuses of R94. -/
inductive Status where
  | ok
  /-- "operation would conflict with an in-flight transfer" -/
  | busy
  /-- "no data to act on" -/
  | empty
  /-- "ring buffer full" -/
  | outOfMemory
  /-- Never returned by this block (R205). -/
  | timeout
  /-- "spurious/unrecognized completion event" -/
  | fail
  /-- The word decodes to no operation (R207). -/
  | illegal
deriving DecidableEq, Repr

/-- The status codes of R94. -/
def statusCode : Status → BitVec 4
  | .ok => 0#4
  | .busy => 1#4
  | .empty => 2#4
  | .outOfMemory => 3#4
  | .timeout => 4#4
  | .fail => 5#4
  | .illegal => 15#4

/-- The response word: `rsp[19:16]` the status, `rsp[15:0]` the value (R93). -/
def response (st : Status) (v : BitVec 16) : Rsp := statusCode st ++ v

end Sys2Proof.Machine
end

