-- ==== Sys2Proof/Machine/Operands.lean ====
section
/-! DEFINITION. Effective indices (R61, R62), the colour operand (R64, R181) and the value a byte has in a response (R95). -/

namespace Sys2Proof.Machine

/-- `zext_16` of a byte (R95). -/
def byteValue (b : Byte) : BitVec 16 := b.setWidth 16

/-- `N − RX.rem`, the index the `RX` engine writes next (R32, R61). -/
def rxWriteIndex (n : Nat) (rem : Cursor) : Nat := n - rem.toNat

/-- `24·idx + b`, the encode-buffer index of bit offset `b` of LED `idx` (R62). -/
def ledIndex (idx b : Nat) : Nat := 24 * idx + b

/-- The code `LED.WRITE` stores at bit offset `b`: `CODE1 if c[23 − b] == 1 else CODE0` (R64, R188). -/
def colourCode (cfg : Config) (c : Colour) (b : Nat) : Byte := if c.getLsbD (23 - b) then cfg.code1 else cfg.code0

/-- The 24 codes of a colour in ascending index order, the most significant bit first (R181, R188). -/
def colourCodes (cfg : Config) (c : Colour) : List Byte := (List.range 24).map (colourCode cfg c)

end Sys2Proof.Machine
end

