-- ==== Sys2Proof/Machine/Ops.lean ====
section
/-! DEFINITION. The shared operations: byte memories (R12, R60, R66), the one-field updates of State, the streams (R13, R47), and the
block's stand-ins for exceptions: the result status (R200) and the completion event (R212). -/

namespace Sys2Proof.Machine

/-- What a meaning, a micro-step or a turn answers. -/
abbrev Result := Host.Outcome State Fault Refusal

/-- Go on from a next state; a stop stays. -/
def andThen (r : Result) (k : State → Result) : Result :=
  match r with
  | .next s => k s
  | .fault f => .fault f
  | .refused q => .refused q

/-! ### A byte memory -/

/-- The byte written at an index since reset, none where nothing has been written. -/
def Memory.read? : Memory → Nat → Option Byte
  | [], _ => none
  | (a, v) :: m, i => if a = i then some v else Memory.read? m i

/-- Store a byte, keeping the indices strictly rising. -/
def Memory.write : Memory → Nat → Byte → Memory
  | [], i, v => [(i, v)]
  | (a, w) :: m, i, v =>
    if i < a then (i, v) :: (a, w) :: m
    else if i = a then (i, v) :: m
    else (a, w) :: Memory.write m i v

/-- Store bytes one after the other at ascending indices from `base` (R67). -/
def Memory.writeRun : Memory → Nat → List Byte → Memory
  | m, _, [] => m
  | m, base, v :: vs => Memory.writeRun (Memory.write m base v) (base + 1) vs

/-- The canonical form of a memory of `size` bytes: indices strictly rising, each inside the buffer. An unlisted index holds no
written byte, so no entry equals what an unlisted index holds. -/
abbrev Memory.wf (size : Nat) (m : Memory) : Prop :=
  m.Pairwise (fun a b => a.1 < b.1) ∧ ∀ c ∈ m, c.1 < size

/-! ### State, one field at a time -/

def State.setRb (s : State) (u : Rb) : State := { s with rb := u }
def State.setTx (s : State) (u : Tx) : State := { s with tx := u }
def State.setRx (s : State) (u : Rx) : State := { s with rx := u }
def State.setLed (s : State) (u : Led) : State := { s with led := u }
def State.setHost (s : State) (p : HostPos) : State := { s with host := p }
def State.setProgram (s : State) (p : List Cmd) : State := { s with program := p }
def State.setSched (s : State) (l : List Turn) : State := { s with sched := l }
def State.setRxIn (s : State) (l : List Byte) : State := { s with rxIn := l }

/-- `emit(TX.out, v)` (R13): one byte written to `DEST_TX` (R63). -/
def State.emitTx (s : State) (v : Byte) : State := { s with txOut := s.txOut ++ [v] }

/-- `emit(LED.out, m)` (R13): one pulse, or the mark of a started frame (R47). -/
def State.emitLed (s : State) (m : LedMark) : State := { s with ledOut := s.ledOut ++ [m] }

/-- One more free value has been drawn for the phase counter (log 3). -/
def State.countDraw (s : State) : State := { s with draws := s.draws + 1 }

/-! ### The four memories -/

/-- A unit's memory (R60). -/
def State.mem (s : State) : MemId → Memory
  | .rb => s.rb.mem
  | .tx => s.tx.mem
  | .rx => s.rx.mem
  | .led => s.led.enc

/-- Replace a unit's memory. -/
def State.setMem (s : State) (u : MemId) (m : Memory) : State :=
  match u with
  | .rb => s.setRb { s.rb with mem := m }
  | .tx => s.setTx { s.tx with mem := m }
  | .rx => s.setRx { s.rx with mem := m }
  | .led => s.setLed { s.led with enc := m }

/-- How many bytes a memory has (R60). -/
def memSize (cfg : Config) : MemId → Nat
  | .rb => cfg.nRb
  | .tx => cfg.nTx
  | .rx => cfg.nRx
  | .led => cfg.frameBytes

/-- The byte at an index of a unit's memory: the last byte stored there since reset, else the reset's free draw (U7, log 2). -/
def byteAt (s : State) (u : MemId) (i : Nat) : Byte :=
  ((s.mem u).read? i).getD (Config.freeByte s.epoch u i)

/-- `MemRead(U.mem[i], 1)` (R12), handed on. An index outside the buffer faults (log 8). -/
def withByte (u : MemId) (i : Nat) (s : State) (k : Byte → Result) : Result :=
  if i < memSize s.cfg u then k (byteAt s u i) else .fault .noSuchByte

/-- `MemWrite(U.mem[i], 1, v)` (R12). An index outside the buffer faults (log 8). -/
def storeByte (u : MemId) (i : Nat) (v : Byte) (s : State) : Result :=
  if i < memSize s.cfg u then .next (s.setMem u ((s.mem u).write i v)) else .fault .noSuchByte

/-! ### Result statuses: what stands for an exception, and the return -/

/-- `return S(v)` (R13): the operation ends with one response word (R93). This is the whole of raising a status and of returning:
nothing is saved, no control flow changes, nothing is remembered (R200, R213). -/
def State.answer (s : State) (st : Status) (v : BitVec 16) : State := { s with answers := s.answers ++ [response st v] }

/-- An operation's end as an answer of the machine. -/
def answered (st : Status) (v : BitVec 16) (s : State) : Result := .next (s.answer st v)

/-- What a word that decodes to no operation does: `Illegal`, value 0, no state of any unit changes (R101). -/
def answerIllegal (s : State) : Result := answered .illegal 0#16 s

/-! ### Completion events: what stands for an interrupt -/

/-- The flag that says the event is pending (R208, R210). -/
def eventPending (s : State) : Event → Bool
  | .tx => s.tx.tc
  | .led => s.led.tc

/-- Entry: the command word `EVT` presents (R212). It saves nothing and changes no mode; return is the handler's own (R213). -/
def eventWord : Event → Cmd
  | .tx => 0x120000000000#48
  | .led => 0x330000000000#48

end Sys2Proof.Machine
end

