-- ==== Sys2Proof/Machine/Engines.lean ====
section
/-! DEFINITION. The steps of the three transfer engines (R150, R167, R192). Each is one atomic step; where it is not enabled the
turn passes (log 4). -/

namespace Sys2Proof.Machine

/-- `XTX` is enabled exactly when `TX.active == 1` and `TX.cnt > 0` (R150). -/
def xtxEnabled (s : State) : Bool := s.tx.active && decide (0 < s.tx.cnt.toNat)

/-- The descriptor after one byte has moved; the completion flag is set with the last byte (R150). -/
def txDescriptorStep (u : Tx) : Tx :=
  { u with src := u.src + 1#16, cnt := u.cnt - 1#16, tc := u.tc || u.cnt == 1#16 }

/-- One `XTX` step: the byte at `TX.src`, read at this moment, goes to `DEST_TX`. -/
def xtxStep (s : State) : Result :=
  if xtxEnabled s then
    withByte .tx s.tx.src.toNat s fun v => .next ((s.emitTx v).setTx (txDescriptorStep s.tx))
  else .next s

/-- The count after one byte has been written: reloaded to `N` after 1 (R167). -/
def rxCountStep (n : Nat) (rem : Cursor) : Cursor := if rem = 1#16 then BitVec.ofNat 16 n else rem - 1#16

/-- One `XRX` step, enabled exactly when `RX.run == 1` and `RX.in` is not empty (R167): the byte is stored at `N − RX.rem` in the
same step in which `RX.rem` changes. -/
def xrxStep (s : State) : Result :=
  match s.rx.run, s.rxIn with
  | true, b :: rest =>
    andThen (storeByte .rx (rxWriteIndex s.cfg.nRx s.rx.rem) b (s.setRxIn rest)) fun s' =>
      .next (s'.setRx { s'.rx with rem := rxCountStep s.cfg.nRx s.rx.rem })
  | true, [] => .next s
  | false, _ => .next s

/-- `XLED` is enabled exactly when `LED.xfer_en == 1`, `LED.gen_en == 1` and `LED.cnt > 0` (R192). -/
def xledEnabled (s : State) : Bool := s.led.xferEn && s.led.genEn && decide (0 < s.led.cnt.toNat)

/-- The descriptor after one pulse; the completion flag is set with the last one; the phase counter takes the given value (R192). -/
def ledDescriptorStep (phase : Phase) (u : Led) : Led :=
  { u with pos := u.pos + 1#21, cnt := u.cnt - 1#21, tc := u.tc || u.cnt == 1#21, phase := phase }

/-- One `XLED` step: the code at `LED.pos`, read at this moment, is one pulse; the phase counter takes a free value (U9, log 3). -/
def xledStep (s : State) : Result :=
  if xledEnabled s then
    withByte .led s.led.pos.toNat s fun c =>
      .next (((s.emitLed (.pulse c)).setLed (ledDescriptorStep (Config.freePhase s.draws) s.led)).countDraw)
  else .next s

end Sys2Proof.Machine
end

