-- ==== Sys2Proof/Machine/LedEncoder.lean ====
section
/-! DEFINITION. Unit LED (R187 to R190): the micro-steps of its operations, and each operation as those micro-steps one after the other. -/

namespace Sys2Proof.Machine

/-- Store codes one after the other at ascending encode-buffer indices from `base`. The callers form no index outside the buffer. -/
def ledStoreRun (base : Nat) (codes : List Byte) (s : State) : State :=
  s.setLed { s.led with enc := s.led.enc.writeRun base codes }

/-! ### `LED.CLEAR` (R187) -/

/-- The micro-step s(i+1): `CODE0` into index `i`. -/
def ledClearStore (i : Nat) (s : State) : Result := storeByte .led i s.cfg.code0 s

/-- `LED.CLEAR`: `CODE0` into every index, ascending; no flag, enable, descriptor or phase is touched. -/
def execLedClear (s : State) : Result :=
  answered .ok 0#16 (ledStoreRun 0 (List.replicate s.cfg.frameBytes s.cfg.code0) s)

/-! ### `LED.WRITE idx, c` (R188) -/

/-- The micro-step s(b+1): the code of colour bit `23 − b` into index `24·idx + b`. -/
def ledWriteStore (idx : BitVec 16) (c : Colour) (b : Nat) (s : State) : Result :=
  storeByte .led (ledIndex idx.toNat b) (colourCode s.cfg c b) s

/-- `LED.WRITE idx, c`: the 24 codes of the colour into LED `idx`. With `idx ≥ L` the word is `Illegal` (R100, log 19). -/
def execLedWrite (idx : BitVec 16) (c : Colour) (s : State) : Result :=
  if idx.toNat < s.cfg.stripLength then
    answered .ok 0#16 (ledStoreRun (ledIndex idx.toNat 0) (colourCodes s.cfg c) s)
  else answerIllegal s

/-! ### `LED.UPDATE` (R189) -/

/-- s1: whether the call starts a transfer: no frame is in flight, and the buffer is not empty (R184, C8, log 18). -/
def ledUpdateStarts (s : State) : Bool := !s.led.inflight && s.cfg.frameBytes != 0

/-- s2: the frame is in flight. -/
def ledUpdateFlag (s : State) : State := s.setLed { s.led with inflight := true }

/-- s3: arm over the entire encode buffer. -/
def ledUpdateArm (s : State) : State := s.setLed { s.led with pos := 0#21, cnt := BitVec.ofNat 21 s.cfg.frameBytes }

/-- s4: start the pulse generator. -/
def ledUpdateGen (s : State) : State := s.setLed { s.led with genEn := true }

/-- s5: start the transfer engine, record the frame mark (R47), return `Ok`. -/
def ledUpdateGo (s : State) : Result :=
  answered .ok 0#16 ((s.setLed { s.led with xferEn := true }).emitLed .frame)

/-- `LED.UPDATE`: a dropped frame answers `Ok` and writes nothing (R185). -/
def execLedUpdate (s : State) : Result :=
  if ledUpdateStarts s then ledUpdateGo (ledUpdateGen (ledUpdateArm (ledUpdateFlag s)))
  else answered .ok 0#16 s

/-! ### `LED.EVT` (R190) -/

/-- Acknowledge, disable the transfer and the generator, idle the phase counter, return to Idle. -/
def ledAcknowledge (s : State) : State :=
  s.setLed { s.led with tc := false, xferEn := false, genEn := false, phase := s.cfg.phaseIdle, inflight := false }

/-- `LED.EVT`: one atomic step. Spurious when `LED.tc == 0`: `Fail`, nothing written. -/
def execLedEvt (s : State) : Result :=
  if s.led.tc then answered .ok 0#16 (ledAcknowledge s) else answered .fail 0#16 s

end Sys2Proof.Machine
end

