-- ==== Sys2Proof/Machine/RingBuffer.lean ====
section
/-! DEFINITION. Unit RB (R128 to R132): the micro-steps of its operations, and each operation as those micro-steps one after the other. -/

namespace Sys2Proof.Machine

/-! ### `RB.PUSH b` (R128) -/

/-- s1: read the cursors; the slot to fill, none when the buffer is full. -/
def rbPushSlot (s : State) : Option Cursor :=
  if isFull s.cfg.nRb s.rb.head s.rb.tail then none else some s.rb.head

/-- s2: store the byte, before `RB.head` moves (D6). -/
def rbPushStore (h : Cursor) (b : Byte) (s : State) : Result := storeByte .rb h.toNat b s

/-- s3: advance `RB.head`, return `Ok`. -/
def rbPushAdvance (h : Cursor) (s : State) : Result :=
  answered .ok 0#16 (s.setRb { s.rb with head := incCursor s.cfg.nRb h })

/-- `RB.PUSH b`: `OutOfMemory` when the buffer is full at s1, else the byte is stored and `RB.head` advances. -/
def execRbPush (b : Byte) (s : State) : Result :=
  match rbPushSlot s with
  | none => answered .outOfMemory 0#16 s
  | some h => andThen (rbPushStore h b s) (rbPushAdvance h)

/-! ### `RB.POP` (R129) -/

/-- s1: read the cursors; the slot to read, none when the buffer is empty. -/
def rbPopSlot (s : State) : Option Cursor :=
  if isEmpty s.rb.head s.rb.tail then none else some s.rb.tail

/-- s2: read the byte and hand it on. -/
def rbPopLoad (t : Cursor) (s : State) (k : Byte → Result) : Result := withByte .rb t.toNat s k

/-- s3: advance `RB.tail`, return `Ok` with the byte (D29). The byte stays in `RB.mem`. -/
def rbPopAdvance (t : Cursor) (v : Byte) (s : State) : Result :=
  answered .ok (byteValue v) (s.setRb { s.rb with tail := incCursor s.cfg.nRb t })

/-- `RB.POP`: on an empty buffer it faults (U1, log 6), else it answers the byte at `RB.tail` and advances `RB.tail`. -/
def execRbPop (s : State) : Result :=
  match rbPopSlot s with
  | none => .fault .popEmpty
  | some t => rbPopLoad t s fun v => rbPopAdvance t v s

/-! ### `RB.AVAIL` (R130), `RB.ISEMPTY` (R131), `RB.ISFULL` (R132) -/

/-- `RB.AVAIL`: the number of resident bytes. -/
def execRbAvail (s : State) : Result :=
  answered .ok (BitVec.ofNat 16 (cursorDist s.cfg.nRb s.rb.head.toNat s.rb.tail.toNat)) s

/-- `RB.ISEMPTY`. -/
def execRbIsEmpty (s : State) : Result :=
  answered .ok (truthValue (isEmpty s.rb.head s.rb.tail)) s

/-- `RB.ISFULL`. -/
def execRbIsFull (s : State) : Result :=
  answered .ok (truthValue (isFull s.cfg.nRb s.rb.head s.rb.tail)) s

end Sys2Proof.Machine
end

