-- ==== Sys2Proof/Machine/RxChannel.lean ====
section
/-! DEFINITION. Unit RX (R163 to R166): the micro-steps of its operations, and each operation as those micro-steps one after the other. -/

namespace Sys2Proof.Machine

/-! ### `RX.START` (R163) -/

/-- s2: the whole buffer, write position 0. -/
def rxStartRem (s : State) : State := s.setRx { s.rx with rem := BitVec.ofNat 16 s.cfg.nRx }

/-- s3: nothing is unread (D12). -/
def rxStartTail (s : State) : State := s.setRx { s.rx with tail := 0#16 }

/-- s4: start the free-running transfer. -/
def rxStartGo (s : State) : State := s.setRx { s.rx with run := true }

/-- `RX.START`: refused while Running (U3, log 7), else rearmed over the full buffer and started. -/
def execRxStart (s : State) : Result :=
  if s.rx.run then .refused .rxStartWhileRunning
  else answered .ok 0#16 (rxStartGo (rxStartTail (rxStartRem s)))

/-! ### `RX.STOP` (R164) -/

/-- `RX.STOP`: clears `RX.run` and nothing else (D13). -/
def execRxStop (s : State) : Result := answered .ok 0#16 (s.setRx { s.rx with run := false })

/-! ### `RX.AVAIL` (R165) -/

/-- s2: read `RX.tail`, return `(N − m − t) mod N`, computed from the virtual head (R161). -/
def rxAvailAnswer (m : Cursor) (s : State) : Result :=
  answered .ok (BitVec.ofNat 16 (cursorDist s.cfg.nRx (vhead s.cfg.nRx m.toNat) s.rx.tail.toNat)) s

/-- `RX.AVAIL`: s1 reads `RX.rem` once. -/
def execRxAvail (s : State) : Result := rxAvailAnswer s.rx.rem s

/-! ### `RX.READ` (R166) -/

/-- s1: read the byte at `RX.tail`, whatever `RX.rem` says, and hand it on. -/
def rxReadLoad (s : State) (k : Byte → Result) : Result := withByte .rx s.rx.tail.toNat s k

/-- s2: advance `RX.tail`, return `Ok` with the byte. -/
def rxReadAdvance (t : Cursor) (v : Byte) (s : State) : Result :=
  answered .ok (byteValue v) (s.setRx { s.rx with tail := incCursor s.cfg.nRx t })

/-- `RX.READ`: never fails; on an empty buffer it returns the stale byte and still advances (U14). -/
def execRxRead (s : State) : Result := rxReadLoad s fun v => rxReadAdvance s.rx.tail v s

end Sys2Proof.Machine
end

