-- ==== Sys2Proof/Machine/TxChannel.lean ====
section
/-! DEFINITION. Unit TX (R145 to R149): the micro-steps of its operations, and each operation as those micro-steps one after the other. -/

namespace Sys2Proof.Machine

/-! ### `TX.ENQ b` (R145) -/

/-- s1: read both cursors in one micro-step (log 17); the slot to fill, none when the buffer is full. -/
def txEnqSlot (s : State) : Option Cursor :=
  if isFull s.cfg.nTx s.tx.head s.tx.tail then none else some s.tx.head

/-- s2: store the byte, before `TX.head` moves (D6). The slot may lie in the run in flight (R240). -/
def txEnqStore (h : Cursor) (b : Byte) (s : State) : Result := storeByte .tx h.toNat b s

/-- s3: advance `TX.head`, return `Ok`. -/
def txEnqAdvance (h : Cursor) (s : State) : Result :=
  answered .ok 0#16 (s.setTx { s.tx with head := incCursor s.cfg.nTx h })

/-- `TX.ENQ b`: `OutOfMemory` when the buffer is full at s1, else the byte is stored and `TX.head` advances. No transfer starts. -/
def execTxEnq (b : Byte) (s : State) : Result :=
  match txEnqSlot s with
  | none => answered .outOfMemory 0#16 s
  | some h => andThen (txEnqStore h b s) (txEnqAdvance h)

/-! ### `TX.START` (R146) -/

/-- s2: read the cursors; the run from `TX.tail`, none when no byte is resident. -/
def txStartRun (s : State) : Option (Cursor × Cursor) :=
  if cursorDist s.cfg.nTx s.tx.head.toNat s.tx.tail.toNat = 0 then none
  else some (s.tx.tail, BitVec.ofNat 16 (run s.cfg.nTx s.tx.head.toNat s.tx.tail.toNat))

/-- s3: arm the engine over `r` bytes from index `t`; the destination is `DEST_TX`. -/
def txStartArm (t r : Cursor) (s : State) : State := s.setTx { s.tx with src := t, cnt := r }

/-- s4: the optimistic commit (R141): `TX.tail` moves past the run. -/
def txStartCommit (t r : Cursor) (s : State) : State :=
  s.setTx { s.tx with tail := BitVec.ofNat 16 ((t.toNat + r.toNat) % s.cfg.nTx) }

/-- s5: start the transfer. -/
def txStartGo (s : State) : State := s.setTx { s.tx with active := true }

/-- s1 to s5: the status and the state `TX.START` ends with. `Busy` is tested before `Empty` (R202). -/
def txStartBody (s : State) : Status × State :=
  if s.tx.active then (.busy, s)
  else
    match txStartRun s with
    | none => (.empty, s)
    | some (t, r) => (.ok, txStartGo (txStartCommit t r (txStartArm t r s)))

/-- `TX.START`. -/
def execTxStart (s : State) : Result := answered (txStartBody s).1 0#16 (txStartBody s).2

/-! ### `TX.EVT` (R149) -/

/-- Acknowledge and deactivate. -/
def txAcknowledge (s : State) : State := s.setTx { s.tx with tc := false, active := false }

/-- `TX.EVT`: one atomic step. Spurious when `TX.tc == 0`: `Fail`, nothing written. Else acknowledge, deactivate, perform
`TX.START`'s micro-steps and discard their status, return `Ok` (D11). -/
def execTxEvt (s : State) : Result :=
  if s.tx.tc then answered .ok 0#16 (txStartBody (txAcknowledge s)).2
  else answered .fail 0#16 s

end Sys2Proof.Machine
end

