-- ==== Sys2Proof/Machine/Dispatch.lean ====
section
/-! DEFINITION. One arm for each operation of the opcode table (R96). -/

namespace Sys2Proof.Machine

def exec (i : Instr) (s : State) : Host.Outcome State Fault Refusal :=
  match i with
  -- unit RB
  | .rbPush b => Sys2Proof.Machine.execRbPush b s
  | .rbPop => Sys2Proof.Machine.execRbPop s
  | .rbAvail => Sys2Proof.Machine.execRbAvail s
  | .rbIsEmpty => Sys2Proof.Machine.execRbIsEmpty s
  | .rbIsFull => Sys2Proof.Machine.execRbIsFull s
  -- unit TX
  | .txEnq b => Sys2Proof.Machine.execTxEnq b s
  | .txStart => Sys2Proof.Machine.execTxStart s
  | .txEvt => Sys2Proof.Machine.execTxEvt s
  -- unit RX
  | .rxStart => Sys2Proof.Machine.execRxStart s
  | .rxStop => Sys2Proof.Machine.execRxStop s
  | .rxAvail => Sys2Proof.Machine.execRxAvail s
  | .rxRead => Sys2Proof.Machine.execRxRead s
  -- unit LED
  | .ledClear => Sys2Proof.Machine.execLedClear s
  | .ledWrite idx c => Sys2Proof.Machine.execLedWrite idx c s
  | .ledUpdate => Sys2Proof.Machine.execLedUpdate s
  | .ledEvt => Sys2Proof.Machine.execLedEvt s

end Sys2Proof.Machine
end

