-- ==== Sys2Proof/Machine/HostAgent.lean ====
section
/-! DEFINITION. The `HOST` agent one micro-step at a time (R14, R73). Each micro-step is the piece the unit's file gives it. -/

namespace Sys2Proof.Machine

/-- The operation goes on: `HOST` is about to take the micro-step `p`. -/
def goOn (p : HostPos) (s : State) : Result := .next (s.setHost p)

/-- `LED.CLEAR`'s micro-step s(i+1), after which comes the next one or the return. With no index left it returns at once. -/
def ledClearMicro (i : Nat) (s : State) : Result :=
  if i < s.cfg.frameBytes then
    andThen (ledClearStore i s) fun s' =>
      if i + 1 < s.cfg.frameBytes then goOn (.ledClearAt (i + 1)) s' else answered .ok 0#16 (s'.setHost .idle)
  else answered .ok 0#16 (s.setHost .idle)

/-- `LED.WRITE`'s micro-step s(b+1), after which comes the next one or, after the 24th, the return. -/
def ledWriteMicro (idx : BitVec 16) (c : Colour) (b : Nat) (s : State) : Result :=
  andThen (ledWriteStore idx c b s) fun s' =>
    if b + 1 < 24 then goOn (.ledWriteAt idx c (b + 1)) s' else answered .ok 0#16 (s'.setHost .idle)

/-- `HOST`, idle, presents an operation and takes its first micro-step. An operation of one micro-step, and an `EVT` operation
(R73: "the result is that of rule R74 taken at that point"), is done with it. -/
def hostBegin (i : Instr) (s : State) : Result :=
  match i with
  | .rbPush b =>
    match rbPushSlot s with
    | none => answered .outOfMemory 0#16 s
    | some h => goOn (.rbPushS2 h b) s
  | .rbPop =>
    match rbPopSlot s with
    | none => .fault .popEmpty
    | some t => goOn (.rbPopS2 t) s
  | .rbAvail => execRbAvail s
  | .rbIsEmpty => execRbIsEmpty s
  | .rbIsFull => execRbIsFull s
  | .txEnq b =>
    match txEnqSlot s with
    | none => answered .outOfMemory 0#16 s
    | some h => goOn (.txEnqS2 h b) s
  | .txStart => if s.tx.active then answered .busy 0#16 s else goOn .txStartS2 s
  | .txEvt => execTxEvt s
  | .rxStart => if s.rx.run then .refused .rxStartWhileRunning else goOn .rxStartS2 s
  | .rxStop => execRxStop s
  | .rxAvail => goOn (.rxAvailS2 s.rx.rem) s
  | .rxRead => rxReadLoad s fun v => goOn (.rxReadS2 s.rx.tail v) s
  | .ledClear => ledClearMicro 0 s
  | .ledWrite idx c => if idx.toNat < s.cfg.stripLength then ledWriteMicro idx c 0 s else answerIllegal s
  | .ledUpdate => if ledUpdateStarts s then goOn .ledUpdateS2 s else answered .ok 0#16 s
  | .ledEvt => execLedEvt s

/-- `HOST`, inside an operation, takes its next micro-step (R73). -/
def hostMicro (p : HostPos) (s : State) : Result :=
  match p with
  | .idle => .next s
  | .rbPushS2 h b => andThen (rbPushStore h b s) (goOn (.rbPushS3 h))
  | .rbPushS3 h => rbPushAdvance h (s.setHost .idle)
  | .rbPopS2 t => rbPopLoad t s fun v => goOn (.rbPopS3 t v) s
  | .rbPopS3 t v => rbPopAdvance t v (s.setHost .idle)
  | .txEnqS2 h b => andThen (txEnqStore h b s) (goOn (.txEnqS3 h))
  | .txEnqS3 h => txEnqAdvance h (s.setHost .idle)
  | .txStartS2 =>
    match txStartRun s with
    | none => answered .empty 0#16 (s.setHost .idle)
    | some (t, r) => goOn (.txStartS3 t r) s
  | .txStartS3 t r => goOn (.txStartS4 t r) (txStartArm t r s)
  | .txStartS4 t r => goOn .txStartS5 (txStartCommit t r s)
  | .txStartS5 => answered .ok 0#16 (txStartGo (s.setHost .idle))
  | .rxStartS2 => goOn .rxStartS3 (rxStartRem s)
  | .rxStartS3 => goOn .rxStartS4 (rxStartTail s)
  | .rxStartS4 => answered .ok 0#16 (rxStartGo (s.setHost .idle))
  | .rxAvailS2 m => rxAvailAnswer m (s.setHost .idle)
  | .rxReadS2 t v => rxReadAdvance t v (s.setHost .idle)
  | .ledClearAt i => ledClearMicro i s
  | .ledWriteAt idx c b => ledWriteMicro idx c b s
  | .ledUpdateS2 => goOn .ledUpdateS3 (ledUpdateFlag s)
  | .ledUpdateS3 => goOn .ledUpdateS4 (ledUpdateArm s)
  | .ledUpdateS4 => goOn .ledUpdateS5 (ledUpdateGen s)
  | .ledUpdateS5 => ledUpdateGo (s.setHost .idle)

end Sys2Proof.Machine
end

