-- ==== Sys2Proof/Machine/Agents.lean ====
section
/-! DEFINITION. What each agent's turn does (R72 to R75, R208, R230), and how a command word reaches the machine (R41, R73). -/

namespace Sys2Proof.Machine

/-- A command word presented and run whole: an `Illegal` word changes nothing and answers `Illegal` in one step (R101). -/
def present (w : Cmd) (s : State) : Result :=
  match decode s.cfg w with
  | .instr i => exec i s
  | .illegal _ => answerIllegal s

/-- A command word presented by `HOST`, of whose operation only the first micro-step is taken. -/
def presentFirst (w : Cmd) (s : State) : Result :=
  match decode s.cfg w with
  | .instr i => hostBegin i s
  | .illegal _ => answerIllegal s

/-- `HOST`'s turn for one whole operation (log 5): enabled when it is idle and has a command to present. -/
def hostOpTurn (s : State) : Result :=
  match s.host, s.program with
  | .idle, w :: rest => present w (s.setProgram rest)
  | _, _ => .next s

/-- `HOST`'s turn for one micro-step (R73). -/
def hostTurn (s : State) : Result :=
  match s.host with
  | .idle =>
    match s.program with
    | w :: rest => presentFirst w (s.setProgram rest)
    | [] => .next s
  | p => hostMicro p s

/-- `ENV` asserts reset (R230): the block, the streams `TX.out` and `LED.out`, the responses and `HOST`'s position are as after
State.resetWith; an operation in progress is abandoned. What the other agents are still going to do, and which free values have
been taken, is not the block's and stays (log 10); unwritten bytes are drawn anew (log 2). -/
def envReset (s : State) : State :=
  { State.resetWith s.cfg with
    rxIn := s.rxIn, program := s.program, sched := s.sched, epoch := s.epoch + 1, draws := s.draws }

/-- One turn (R72). -/
def takeTurn (t : Turn) (s : State) : Result :=
  match t with
  | .host => hostTurn s
  | .hostOp => hostOpTurn s
  | .evt e => present (eventWord e) s
  | .xtx => xtxStep s
  | .xrx => xrxStep s
  | .xled => xledStep s
  | .supply b => .next (s.setRxIn (s.rxIn ++ [b]))
  | .reset => .next (envReset s)

/-- The next turn is taken from the schedule; with none left no agent moves (log 4). -/
def nextTurn (s : State) : Result :=
  match s.sched with
  | [] => .next s
  | t :: rest => takeTurn t (s.setSched rest)

/-- A command word loaded from outside (log 15): `HOST` is idle, the word is the next it presents, and its next turn, which comes
first, runs it whole. -/
def loadCommand (w : Cmd) (s : State) : State :=
  ((s.setHost .idle).setProgram (w :: s.program)).setSched (.hostOp :: s.sched)

end Sys2Proof.Machine
end

