-- ==== Sys2Proof/Safety.lean ====
section
/-! DEFINITION. The invariant of the machine (R24, R29, R33, R40, R147, R189) and the terms in which the statements speak of buffers,
streams and frames. -/

namespace Sys2Proof.Machine

/-! ### The invariant -/

/-- Unit `RB`: the cursors are in `[0, N)` (R24(a)), the memory is canonical. -/
abbrev RbOk (s : State) : Prop :=
  s.rb.head.toNat < s.cfg.nRb ∧ s.rb.tail.toNat < s.cfg.nRb ∧ Memory.wf s.cfg.nRb s.rb.mem

/-- Unit `TX`: the ranges of R25 and R28, the memory is canonical. -/
abbrev TxOk (s : State) : Prop :=
  s.tx.head.toNat < s.cfg.nTx ∧ s.tx.tail.toNat < s.cfg.nTx ∧ s.tx.src.toNat ≤ s.cfg.nTx ∧
    s.tx.cnt.toNat < s.cfg.nTx ∧ Memory.wf s.cfg.nTx s.tx.mem

/-- R29(a) to (d), the last as a range and as the place of the run. -/
abbrev TxFlagsOk (s : State) : Prop :=
  (s.tx.tc = true → s.tx.active = true ∧ s.tx.cnt = 0#16) ∧
  (s.tx.active = false → s.tx.tc = false ∧ s.tx.cnt = 0#16) ∧
  (s.tx.active = true → s.tx.tc = false → 1 ≤ s.tx.cnt.toNat) ∧
  (s.tx.active = true → s.tx.src.toNat + s.tx.cnt.toNat ≤ s.cfg.nTx ∧
    (s.tx.src.toNat + s.tx.cnt.toNat) % s.cfg.nTx = s.tx.tail.toNat)

/-- Unit `RX`: R33(a), (b), the memory is canonical. -/
abbrev RxOk (s : State) : Prop :=
  s.rx.tail.toNat < s.cfg.nRx ∧ 1 ≤ s.rx.rem.toNat ∧ s.rx.rem.toNat ≤ s.cfg.nRx ∧ Memory.wf s.cfg.nRx s.rx.mem

/-- Unit `LED`: the ranges of R39, the buffer is canonical. -/
abbrev LedOk (s : State) : Prop :=
  s.led.pos.toNat ≤ s.cfg.frameBytes ∧ s.led.cnt.toNat ≤ s.cfg.frameBytes ∧ Memory.wf s.cfg.frameBytes s.led.enc

/-- R40(a) to (d). -/
abbrev LedFlagsOk (s : State) : Prop :=
  (s.led.tc = true → s.led.inflight = true ∧ s.led.cnt = 0#21) ∧
  (s.led.inflight = false → s.led.tc = false ∧ s.led.cnt = 0#21 ∧ s.led.xferEn = false ∧ s.led.genEn = false) ∧
  (s.led.inflight = true → s.led.xferEn = true ∧ s.led.genEn = true ∧
    s.led.pos.toNat + s.led.cnt.toNat = s.cfg.frameBytes) ∧
  (s.led.inflight = true → s.led.tc = false → 1 ≤ s.led.cnt.toNat)

/-- Whether `HOST` stands outside the micro-steps s3 to s5 of `TX.START` (R29). -/
def outsideTxStart : HostPos → Bool
  | .txStartS4 _ _ => false
  | .txStartS5 => false
  | _ => true

/-- Whether `HOST` stands outside the micro-steps s2 to s5 of `LED.UPDATE` (R40). -/
def outsideLedUpdate : HostPos → Bool
  | .ledUpdateS3 => false
  | .ledUpdateS4 => false
  | .ledUpdateS5 => false
  | _ => true

/-- No transfer of `TX` is armed and started, and none is pending (R147). -/
def txAtRest (s : State) : Bool := !s.tx.active && !s.tx.tc

/-- A frame is claimed by `LED.UPDATE`, and the engine cannot run yet (R189(d)). -/
def ledClaimed (s : State) : Bool := s.led.inflight && !s.led.tc && !s.led.xferEn

/-- What holds of the local values of the operation `HOST` is in, and of the unit's state meanwhile (R147, R163(e), R189(d)). -/
def hostOk (s : State) : Bool :=
  match s.host with
  | .idle => true
  | .rbPushS2 h _ => h == s.rb.head && !isFull s.cfg.nRb s.rb.head s.rb.tail
  | .rbPushS3 h => h == s.rb.head && !isFull s.cfg.nRb s.rb.head s.rb.tail
  | .rbPopS2 t => t == s.rb.tail && !isEmpty s.rb.head s.rb.tail
  | .rbPopS3 t _ => t == s.rb.tail && !isEmpty s.rb.head s.rb.tail
  | .txEnqS2 h _ => h == s.tx.head && !isFull s.cfg.nTx s.tx.head s.tx.tail
  | .txEnqS3 h => h == s.tx.head && !isFull s.cfg.nTx s.tx.head s.tx.tail
  | .txStartS2 => txAtRest s
  | .txStartS3 t r => txAtRest s && txStartRun s == some (t, r)
  | .txStartS4 t r => txAtRest s && txStartRun s == some (t, r) && s.tx.src == t && s.tx.cnt == r
  | .txStartS5 => txAtRest s && decide (1 ≤ s.tx.cnt.toNat) &&
      decide (s.tx.src.toNat + s.tx.cnt.toNat ≤ s.cfg.nTx) &&
      decide ((s.tx.src.toNat + s.tx.cnt.toNat) % s.cfg.nTx = s.tx.tail.toNat)
  | .rxStartS2 => !s.rx.run
  | .rxStartS3 => !s.rx.run && s.rx.rem == BitVec.ofNat 16 s.cfg.nRx
  | .rxStartS4 => !s.rx.run && s.rx.rem == BitVec.ofNat 16 s.cfg.nRx && s.rx.tail == 0#16
  | .rxAvailS2 m => decide (1 ≤ m.toNat) && decide (m.toNat ≤ s.cfg.nRx)
  | .rxReadS2 t _ => t == s.rx.tail
  | .ledClearAt i => decide (i < s.cfg.frameBytes)
  | .ledWriteAt idx _ b => decide (idx.toNat < s.cfg.stripLength) && decide (b < 24)
  | .ledUpdateS2 => !s.led.inflight
  | .ledUpdateS3 => ledClaimed s && !s.led.genEn && s.led.cnt == 0#21
  | .ledUpdateS4 => ledClaimed s && !s.led.genEn && s.led.pos == 0#21 &&
      decide (s.led.cnt.toNat = s.cfg.frameBytes)
  | .ledUpdateS5 => ledClaimed s && s.led.genEn && s.led.pos == 0#21 &&
      decide (s.led.cnt.toNat = s.cfg.frameBytes)

/-- The invariant: valid parameters (R8), every register in its range, every memory canonical, the flag invariants of R29 and R40
at the points the rules name, and the operation in progress as its rule says. -/
abbrev Inv (s : State) : Prop :=
  s.cfg.Valid ∧ RbOk s ∧ TxOk s ∧ RxOk s ∧ LedOk s ∧
    (outsideTxStart s.host = true → TxFlagsOk s) ∧ (outsideLedUpdate s.host = true → LedFlagsOk s) ∧ hostOk s = true

/-! ### Frames -/

/-- What no command of any unit touches: parameters, the agents' positions and inputs, the free-value counters. -/
abbrev SameRest (s t : State) : Prop :=
  t.cfg = s.cfg ∧ t.rxIn = s.rxIn ∧ t.host = s.host ∧ t.program = s.program ∧ t.sched = s.sched ∧
    t.epoch = s.epoch ∧ t.draws = s.draws

/-- Everything but unit `RB` and the responses is unchanged. -/
abbrev OnlyRb (s t : State) : Prop :=
  SameRest s t ∧ t.tx = s.tx ∧ t.rx = s.rx ∧ t.led = s.led ∧ t.txOut = s.txOut ∧ t.ledOut = s.ledOut

/-- Everything but unit `TX` and the responses is unchanged. -/
abbrev OnlyTx (s t : State) : Prop :=
  SameRest s t ∧ t.rb = s.rb ∧ t.rx = s.rx ∧ t.led = s.led ∧ t.txOut = s.txOut ∧ t.ledOut = s.ledOut

/-- Everything but unit `RX` and the responses is unchanged. -/
abbrev OnlyRx (s t : State) : Prop :=
  SameRest s t ∧ t.rb = s.rb ∧ t.tx = s.tx ∧ t.led = s.led ∧ t.txOut = s.txOut ∧ t.ledOut = s.ledOut

/-- Everything but unit `LED`, `LED.out` and the responses is unchanged. -/
abbrev OnlyLed (s t : State) : Prop :=
  SameRest s t ∧ t.rb = s.rb ∧ t.tx = s.tx ∧ t.rx = s.rx ∧ t.txOut = s.txOut

/-- Everything but the responses is unchanged. -/
abbrev OnlyAnswers (s t : State) : Prop :=
  SameRest s t ∧ t.rb = s.rb ∧ t.tx = s.tx ∧ t.rx = s.rx ∧ t.led = s.led ∧ t.txOut = s.txOut ∧ t.ledOut = s.ledOut

/-- The operation ended with exactly one response. -/
abbrev Answers (s t : State) (st : Status) (v : BitVec 16) : Prop := t.answers = s.answers ++ [response st v]

/-- Every byte of every memory reads as before. -/
def AllBytesSame (s t : State) : Prop := ∀ u i, byteAt t u i = byteAt s u i

/-- Every byte of every memory reads as before, but for the byte at `i` of `u`. -/
def BytesSameBut (u : MemId) (i : Nat) (s t : State) : Prop := ∀ v j, ¬ (v = u ∧ j = i) → byteAt t v j = byteAt s v j

/-- The unit an operation belongs to (R91, R96). -/
def unitOf : Instr → MemId
  | .rbPush _ => .rb
  | .rbPop => .rb
  | .rbAvail => .rb
  | .rbIsEmpty => .rb
  | .rbIsFull => .rb
  | .txEnq _ => .tx
  | .txStart => .tx
  | .txEvt => .tx
  | .rxStart => .rx
  | .rxStop => .rx
  | .rxAvail => .rx
  | .rxRead => .rx
  | .ledClear => .led
  | .ledWrite _ _ => .led
  | .ledUpdate => .led
  | .ledEvt => .led

/-- Two states with the same parameters in which one unit, its unwritten bytes included, is the same. -/
def SameUnit (u : MemId) (s s' : State) : Prop :=
  s'.cfg = s.cfg ∧ s'.epoch = s.epoch ∧
    match u with
    | .rb => s'.rb = s.rb
    | .tx => s'.tx = s.tx
    | .rx => s'.rx = s.rx
    | .led => s'.led = s.led

/-- Only the given unit, `LED.out` in the case of `LED`, and the responses may have changed. -/
def OnlyUnit : MemId → State → State → Prop
  | .rb => OnlyRb
  | .tx => OnlyTx
  | .rx => OnlyRx
  | .led => OnlyLed

/-! ### Buffers as sequences of bytes -/

/-- The `count` bytes of a ring memory of size `n` from index `t` on, oldest first (R24(e)). -/
def ringBytes (s : State) (u : MemId) (n t count : Nat) : List Byte :=
  (List.range count).map fun k => byteAt s u ((t + k) % n)

/-- The resident bytes of `RB`. -/
def rbResident (s : State) : List Byte :=
  ringBytes s .rb s.cfg.nRb s.rb.tail.toNat (cursorDist s.cfg.nRb s.rb.head.toNat s.rb.tail.toNat)

/-- The resident bytes of `TX`. -/
def txResident (s : State) : List Byte :=
  ringBytes s .tx s.cfg.nTx s.tx.tail.toNat (cursorDist s.cfg.nTx s.tx.head.toNat s.tx.tail.toNat)

/-- The bytes of the committed run still to move. -/
def txInFlight (s : State) : List Byte := (List.range s.tx.cnt.toNat).map fun k => byteAt s .tx (s.tx.src.toNat + k)

/-- Whether `HOST` has armed a run (s3 of `TX.START`) and not yet moved `TX.tail` past it (s4): its bytes are still the first resident
ones (R141, R146). -/
def runStillResident : HostPos → Bool
  | .txStartS4 _ _ => true
  | _ => false

/-- The unsent bytes: those of the run in flight, then the resident ones (R240). A run that is armed and not yet committed counts once. -/
def txUnsent (s : State) : List Byte :=
  if runStillResident s.host then txResident s else txInFlight s ++ txResident s

/-- `u` of R240: the number of unsent bytes. -/
def txUnsentCount (s : State) : Nat := s.tx.cnt.toNat + cursorDist s.cfg.nTx s.tx.head.toNat s.tx.tail.toNat

/-- The number `RX.AVAIL` computes. -/
def rxCount (s : State) : Nat := cursorDist s.cfg.nRx (vhead s.cfg.nRx s.rx.rem.toNat) s.rx.tail.toNat

/-- The unread bytes of `RX`, as long as no overrun has happened. -/
def rxUnread (s : State) : List Byte := ringBytes s .rx s.cfg.nRx s.rx.tail.toNat (rxCount s)

/-- The encode buffer as one sequence. -/
def encBytes (s : State) : List Byte := (List.range s.cfg.frameBytes).map (byteAt s .led)

/-! ### Runs of one unit -/

/-- Operations one after the other, no other agent stepping. -/
def execAll : List Instr → State → Result
  | [], s => .next s
  | i :: is, s => andThen (exec i s) (execAll is)

/-- What a FIFO queue of capacity `cap` that holds `q` does with an `RB` command: its response and the queue afterwards; none for
a pop that finds it empty, and for a command of another unit. -/
def queueStep (cap : Nat) (i : Instr) (q : List Byte) : Option (Rsp × List Byte) :=
  match i with
  | .rbPush b =>
    if q.length < cap then some (response .ok 0#16, q ++ [b]) else some (response .outOfMemory 0#16, q)
  | .rbPop =>
    match q with
    | v :: rest => some (response .ok (byteValue v), rest)
    | [] => none
  | .rbAvail => some (response .ok (BitVec.ofNat 16 q.length), q)
  | .rbIsEmpty => some (response .ok (truthValue (q.length == 0)), q)
  | .rbIsFull => some (response .ok (truthValue (q.length == cap)), q)
  | _ => none

/-- The responses of the queue to commands one after the other, and what it holds at the end. -/
def queueRun (cap : Nat) : List Instr → List Byte → Option (List Rsp × List Byte)
  | [], q => some ([], q)
  | i :: is, q =>
    match queueStep cap i q with
    | none => none
    | some (r, q') => (queueRun cap is q').map fun p => (r :: p.1, p.2)

/-- The bytes sent and still to be sent by `TX`, in order. -/
def txStream (s : State) : List Byte := s.txOut ++ txUnsent s

/-- The byte a command word adds to those: that of a `TX.ENQ` which finds a free slot. -/
def acceptedByWord (w : Cmd) (s : State) : List Byte :=
  match decode s.cfg w with
  | .instr (.txEnq b) => if isFull s.cfg.nTx s.tx.head s.tx.tail then [] else [b]
  | _ => []

/-- The byte the next micro-step of `HOST` adds to those: at s3 of `TX.ENQ`, where `TX.head` moves past it, the byte in the slot (R145). -/
def acceptedByMicroStep (s : State) : List Byte :=
  match s.host with
  | .txEnqS3 h => [byteAt s .tx h.toNat]
  | _ => []

/-- The byte the operation which an idle `HOST` presents next adds to those, if it is run whole. -/
def acceptedByOperation (s : State) : List Byte :=
  if s.host = .idle then
    match s.program with
    | w :: _ => acceptedByWord w s
    | [] => []
  else []

/-- The byte a turn adds to those: only `HOST`'s turns, of either kind, add one. -/
def acceptedByTurn (t : Turn) (s : State) : List Byte :=
  match t with
  | .host => acceptedByMicroStep s
  | .hostOp => acceptedByOperation s
  | _ => []

/-- Whether `HOST` is about to take s2 of `TX.ENQ`, the micro-step that stores the byte (R145). -/
def atEnqueueStore : HostPos → Bool
  | .txEnqS2 _ _ => true
  | _ => false

/-- Whether a turn stores a byte into `TX.mem`: s2 of a `TX.ENQ`, or a whole `TX.ENQ` that is accepted. -/
def enqueueStores (t : Turn) (s : State) : Bool :=
  match t with
  | .host => atEnqueueStore s.host
  | .hostOp => !(acceptedByOperation s).isEmpty
  | _ => false

/-- Something that happens to a running `RX`: the engine receives a byte, or `HOST` issues `RX.READ`. -/
inductive RxAct where
  | receive (b : Byte)
  | read
deriving DecidableEq, Repr

/-- One such happening. -/
def rxAct (a : RxAct) (s : State) : Result :=
  match a with
  | .receive b => andThen (xrxStep (s.setRxIn [b])) fun s' => .next (s'.setRxIn s.rxIn)
  | .read => exec .rxRead s

/-- Several, in order. -/
def rxActs : List RxAct → State → Result
  | [], s => .next s
  | a :: as, s => andThen (rxAct a s) (rxActs as)

/-- How many bytes are received. -/
def rxWritten (as : List RxAct) : Nat := as.countP fun a => a != .read

/-- How many `RX.READ` are issued. -/
def rxRead (as : List RxAct) : Nat := as.countP fun a => a == .read

/-- The same engine step `k` times. -/
def engineSteps (f : State → Result) : Nat → State → Result
  | 0, s => .next s
  | k + 1, s => andThen (f s) (engineSteps f k)

end Sys2Proof.Machine
end

