-- ==== Sys2Proof/Certificates/Slice0/Obligations.lean ====
section
/-! DEFINITION. The statements about the model. Each says in its docstring which text of the spec it comes from. A "decision" of the
spec is a rule the spec marks as its own choice, not the source's; D<n> is its entry in 92_eei_decisions.md. -/

open Sys2Proof Sys2Proof.Machine

/-! ### Encoding -/

/-- R106, whole: the worked encodings in both directions, the illegal words, the responses (computed from the encoding of D2, D3). -/
def Obligations.WorkedEncodings : Prop :=
  ∀ cfg : Config, cfg.stripLength = 2 →
    (∀ p ∈ [((.rbPush 0x41#8 : Instr), 0x000000000041#48), (.rbPop, 0x010000000000#48), (.txEnq 0x7E#8, 0x10000000007E#48),
        (.txStart, 0x110000000000#48), (.txEvt, 0x120000000000#48), (.rxRead, 0x230000000000#48),
        (.ledWrite 1#16 0xFF0000#24, 0x310001FF0000#48), (.ledUpdate, 0x320000000000#48)],
      encode p.1 = p.2 ∧ decode cfg p.2 = .instr p.1) ∧
    (∀ p ∈ [(0x050000000000#48, Illegal.noSuchOperation), (0x400000000000#48, .noSuchOperation),
        (0x010000000001#48, .operandFieldNotZero), (0x000000000141#48, .operandFieldNotZero),
        (0x000001000041#48, .operandFieldNotZero), (0x310002000000#48, .ledIndexOutOfRange)],
      decode cfg p.1 = .illegal p.2) ∧
    response .ok 0x41#16 = 0x00041#20 ∧ response .outOfMemory 0#16 = 0x30000#20 ∧ response .busy 0#16 = 0x10000#20 ∧
    response .empty 0#16 = 0x20000#20 ∧ response .fail 0#16 = 0x50000#20 ∧ response .illegal 0#16 = 0xF0000#20

/-- R92, R96, R97, R103 (D2): no bit of an operation's word is dropped. -/
def Obligations.DecodeInvertsEncode : Prop :=
  ∀ (cfg : Config) (i : Instr), i.wellFormed cfg = true → decode cfg (encode i) = .instr i

/-- R97, R99, R100 (D2): each word has at most one meaning, and what a word decodes to is an operation the block has. -/
def Obligations.EncodeInvertsDecode : Prop :=
  ∀ (cfg : Config) (w : Cmd) (i : Instr), decode cfg w = .instr i → encode i = w ∧ i.wellFormed cfg = true

/-- R98, R99, R100 (D2, D19): which words are `Illegal`, by the fields of R91. -/
def Obligations.IllegalWordsByField : Prop :=
  (∀ (cfg : Config) (w : Cmd),
    (decode cfg w = .illegal .noSuchOperation ↔
      4 ≤ (w.extractLsb' 44 4).toNat ∨
      (w.extractLsb' 44 4).toNat = 0 ∧ 5 ≤ (w.extractLsb' 40 4).toNat ∨
      (w.extractLsb' 44 4).toNat = 1 ∧ 3 ≤ (w.extractLsb' 40 4).toNat ∨
      (w.extractLsb' 44 4).toNat = 2 ∧ 4 ≤ (w.extractLsb' 40 4).toNat ∨
      (w.extractLsb' 44 4).toNat = 3 ∧ 4 ≤ (w.extractLsb' 40 4).toNat)) ∧
  (∀ (cfg : Config) (w : Cmd),
    opcodeByte w ∈ [0x01#8, 0x02#8, 0x03#8, 0x04#8, 0x11#8, 0x12#8, 0x20#8, 0x21#8, 0x22#8, 0x23#8, 0x30#8, 0x32#8, 0x33#8] →
    (decode cfg w = .illegal .operandFieldNotZero ↔ w.extractLsb' 0 40 ≠ 0#40)) ∧
  (∀ (cfg : Config) (w : Cmd), opcodeByte w ∈ [0x00#8, 0x10#8] →
    (decode cfg w = .illegal .operandFieldNotZero ↔ w.extractLsb' 8 32 ≠ 0#32)) ∧
  (∀ (cfg : Config) (w : Cmd), opcodeByte w = 0x31#8 →
    ((idxField w).toNat < cfg.stripLength → decode cfg w = .instr (.ledWrite (idxField w) (dataField w))) ∧
    (cfg.stripLength ≤ (idxField w).toNat → decode cfg w = .illegal .ledIndexOutOfRange))

/-- R96 (D2): a decoded word selects its row by match and mask, and no word selects the rows of two opcode bytes. -/
def Obligations.RowsSelectAndExclude : Prop :=
  (∀ (cfg : Config) (w : Cmd) (i : Instr), decode cfg w = .instr i → w &&& i.row.mask = i.row.pattern) ∧
  (∀ (i j : Instr) (w : Cmd), w &&& i.row.mask = i.row.pattern → w &&& j.row.mask = j.row.pattern → i.opcode = j.opcode)

/-- R93, R94 (D3): the fields of the response word and the status codes, which differ from one another. -/
def Obligations.ResponseWordFields : Prop :=
  (∀ (st : Status) (v : BitVec 16),
    (response st v).extractLsb' 16 4 = statusCode st ∧ (response st v).extractLsb' 0 16 = v) ∧
  (∀ a b : Status, statusCode a = statusCode b → a = b) ∧
  statusCode .ok = 0#4 ∧ statusCode .busy = 1#4 ∧ statusCode .empty = 2#4 ∧ statusCode .outOfMemory = 3#4 ∧
  statusCode .timeout = 4#4 ∧ statusCode .fail = 5#4 ∧ statusCode .illegal = 15#4

/-! ### The step -/

/-- R73, R97: when it is `HOST`'s turn for a whole operation, it is idle, and the next word of its program decodes to `i`, the step is
exec of `i` in the state in which that turn and that word are taken. The whole-operation turn is the model's (log 5). -/
def Obligations.StepRunsTheDecodedCommand : Prop :=
  ∀ (s : State) (w : Cmd) (ws : List Cmd) (rest : List Turn) (i : Instr),
    s.sched = .hostOp :: rest → s.host = .idle → s.program = w :: ws → decode s.cfg w = .instr i →
    step s = exec i ((s.setSched rest).setProgram ws)

/-- How a command is loaded (log 15): it is the next one run, in the state it was loaded into with `HOST` idle. -/
def Obligations.LoadedCommandRunsNext : Prop :=
  ∀ (s : State) (nbits w : Nat) (i : Instr), decode s.cfg (BitVec.ofNat 48 (w % 2 ^ nbits)) = .instr i →
    step (s.withFetchWord nbits w) = exec i (s.setHost .idle)

/-- R74, R212: an invocation of an entry point is one step, wherever `HOST` stands, and `HOST` stands there afterwards. -/
def Obligations.EventTurnRunsTheHandler : Prop :=
  ∀ (s : State) (e : Event) (rest : List Turn), s.sched = .evt e :: rest →
    ∃ t, step s = .next t ∧ exec (match e with | .tx => .txEvt | .led => .ledEvt) (s.setSched rest) = .next t ∧ t.host = s.host

/-- R101 (D3): an `Illegal` word is one step that changes nothing and answers status 15, value 0; so for `HOST`'s turn of either kind.
The meaning of `LED.WRITE` says the same of an index beyond the strip, which no decoded word has (R100, log 19); no other does. -/
def Obligations.IllegalWordChangesNothing : Prop :=
  (∀ (s : State) (w : Cmd) (ws : List Cmd) (rest : List Turn) (turn : Turn) (why : Illegal),
    turn = .hostOp ∨ turn = .host → s.sched = turn :: rest → s.host = .idle → s.program = w :: ws →
    decode s.cfg w = .illegal why →
    ∃ t, step s = .next t ∧ OnlyAnswers ((s.setSched rest).setProgram ws) t ∧ t.answers = s.answers ++ [0xF0000#20]) ∧
  (∀ (s : State) (idx : BitVec 16) (c : Colour), s.cfg.stripLength ≤ idx.toNat →
    ∃ t, exec (.ledWrite idx c) s = .next t ∧ OnlyAnswers s t ∧ AllBytesSame s t ∧ t.answers = s.answers ++ [0xF0000#20]) ∧
  (∀ (s t : State) (i : Instr) (v : BitVec 16), exec i s = .next t → Answers s t .illegal v → i.wellFormed s.cfg = false)

/-- R14, R73, R250: `HOST` taking the micro-steps of its next command one after the other does what the whole operation does, and the
number of them is bounded. So the model's whole-operation turn (log 5) adds no behaviour. -/
def Obligations.MicroStepsMakeTheOperation : Prop :=
  ∀ (s : State) (w : Cmd) (ws : List Cmd) (rest : List Turn), s.host = .idle → s.program = w :: ws →
    ∃ k, k < max 24 s.cfg.frameBytes ∧
      Host.Core.run core (k + 1) (s.setSched (List.replicate (k + 1) .host ++ rest)) = step (s.setSched (.hostOp :: rest))

/-- R72, R75: a turn of an engine that is not enabled, and of `HOST` with nothing to present, changes nothing (log 4). -/
def Obligations.DisabledTurnsPass : Prop :=
  ∀ (s : State) (turn : Turn) (rest : List Turn), s.sched = turn :: rest →
    (turn = .xtx ∧ (s.tx.active = false ∨ s.tx.cnt = 0#16)) ∨
    (turn = .xrx ∧ (s.rx.run = false ∨ s.rxIn = [])) ∨
    (turn = .xled ∧ (s.led.xferEn = false ∨ s.led.genEn = false ∨ s.led.cnt = 0#21)) ∨
    ((turn = .host ∨ turn = .hostOp) ∧ s.host = .idle ∧ s.program = []) →
    step s = .next (s.setSched rest)

/-! ### Cursor arithmetic -/

/-- R120, whole: the closed forms of `inc`, `dist` and `run` are the reductions modulo `N` and the minimum that define them. -/
def Obligations.CursorFunctionsAreReductions : Prop :=
  ∀ n h t i : Nat, h < n → t < n → i < n →
    inc n i = (i + 1) % n ∧ inc n i = (if i = n - 1 then 0 else i + 1) ∧
    (cursorDist n h t : Int) = ((h : Int) - (t : Int)) % (n : Int) ∧
    cursorDist n h t = (if t ≤ h then h - t else h + n - t) ∧
    run n h t = min (cursorDist n h t) (n - t)

/-- R121, whole: empty is `h == t` is `dist == 0`, full is `inc(h) == t` is `dist == N − 1`, and with `N ≥ 2` they never hold together. -/
def Obligations.EmptyAndFull : Prop :=
  ∀ n h t : Nat, 2 ≤ n → h < n → t < n →
    (h = t ↔ cursorDist n h t = 0) ∧ (inc n h = t ↔ cursorDist n h t = n - 1) ∧ ¬ (h = t ∧ inc n h = t)

/-- R122, R123, R124: the count is in range; the producer and the consumer law; what advancing a cursor the wrong way does. -/
def Obligations.ProducerAndConsumerLaws : Prop :=
  ∀ n h t : Nat, 2 ≤ n → h < n → t < n →
    cursorDist n h t ≤ n - 1 ∧
    (cursorDist n h t < n - 1 → cursorDist n (inc n h) t = cursorDist n h t + 1) ∧
    (cursorDist n h t = n - 1 → inc n h = t ∧ cursorDist n (inc n h) t = 0) ∧
    (0 < cursorDist n h t → cursorDist n h (inc n t) = cursorDist n h t - 1) ∧
    (cursorDist n h t = 0 → cursorDist n h (inc n t) = n - 1)

/-- R125: the position law. -/
def Obligations.PositionLaw : Prop :=
  ∀ n h t k : Nat, h < n → t < n → k ≤ cursorDist n h t →
    (t + cursorDist n h t) % n = h ∧ cursorDist n h ((t + k) % n) = cursorDist n h t - k

/-- R126: the run law, (a) to (d); a wrapped backlog is two runs. -/
def Obligations.RunLaw : Prop :=
  ∀ n h t : Nat, h < n → t < n →
    run n h t ≤ cursorDist n h t ∧ (1 ≤ cursorDist n h t → 1 ≤ run n h t) ∧ t + run n h t ≤ n ∧
    (run n h t = cursorDist n h t ↔ t + cursorDist n h t ≤ n) ∧
    (run n h t < cursorDist n h t →
      run n h t = n - t ∧ (t + run n h t) % n = 0 ∧ run n h 0 = cursorDist n h t - run n h t)

/-! ### Unit RB -/

/-- R128, R204: `RB.PUSH`, both cases, with its frame. -/
def Obligations.RbPushStoresAndAdvances : Prop :=
  ∀ (s : State) (b : Byte), s.cfg.Valid → RbOk s →
    (inc s.cfg.nRb s.rb.head.toNat = s.rb.tail.toNat →
      ∃ t, exec (.rbPush b) s = .next t ∧ OnlyAnswers s t ∧ AllBytesSame s t ∧ Answers s t .outOfMemory 0#16) ∧
    (inc s.cfg.nRb s.rb.head.toNat ≠ s.rb.tail.toNat →
      ∃ t, exec (.rbPush b) s = .next t ∧ OnlyRb s t ∧ t.rb.tail = s.rb.tail ∧
        t.rb.head.toNat = inc s.cfg.nRb s.rb.head.toNat ∧
        byteAt t .rb s.rb.head.toNat = b ∧ BytesSameBut .rb s.rb.head.toNat s t ∧ Answers s t .ok 0#16)

/-- R129, U1: `RB.POP` on a buffer that is not empty, with its frame; on an empty buffer it has no value and the machine stops. -/
def Obligations.RbPopReadsAndAdvances : Prop :=
  ∀ s : State, s.cfg.Valid → RbOk s →
    (s.rb.head ≠ s.rb.tail →
      ∃ t, exec .rbPop s = .next t ∧ OnlyRb s t ∧ t.rb.head = s.rb.head ∧
        t.rb.tail.toNat = inc s.cfg.nRb s.rb.tail.toNat ∧ AllBytesSame s t ∧
        Answers s t .ok ((byteAt s .rb s.rb.tail.toNat).setWidth 16)) ∧
    (s.rb.head = s.rb.tail → exec .rbPop s = .fault .popEmpty)

/-- R130, R132, whole, and R131's operation: the three queries answer the count and the two truth values and change nothing; the count is at
most `N − 1`, and `RB.ISFULL` is true exactly when it is `N − 1` and exactly when `RB.PUSH` answers `OutOfMemory`. -/
def Obligations.RbQueriesAnswerAndChangeNothing : Prop :=
  encode .rbAvail = 0x020000000000#48 ∧ encode .rbIsEmpty = 0x030000000000#48 ∧ encode .rbIsFull = 0x040000000000#48 ∧
  ∀ s : State, s.cfg.Valid → RbOk s →
    ∃ t v, exec .rbAvail s = .next t ∧ OnlyAnswers s t ∧ AllBytesSame s t ∧ Answers s t .ok v ∧
      (v.toNat : Int) = ((s.rb.head.toNat : Int) - s.rb.tail.toNat) % s.cfg.nRb ∧ v.toNat ≤ s.cfg.nRb - 1 ∧
      (∃ t, exec .rbIsEmpty s = .next t ∧ OnlyAnswers s t ∧ AllBytesSame s t ∧
        Answers s t .ok (if s.rb.head = s.rb.tail then 1#16 else 0#16)) ∧
      (∃ t, exec .rbIsFull s = .next t ∧ OnlyAnswers s t ∧ AllBytesSame s t ∧
        Answers s t .ok (if (s.rb.head.toNat + 1) % s.cfg.nRb = s.rb.tail.toNat then 1#16 else 0#16)) ∧
      ((s.rb.head.toNat + 1) % s.cfg.nRb = s.rb.tail.toNat ↔ v.toNat = s.cfg.nRb - 1) ∧
      (∀ b, (s.rb.head.toNat + 1) % s.cfg.nRb = s.rb.tail.toNat ↔
        ∃ t, exec (.rbPush b) s = .next t ∧ Answers s t .outOfMemory 0#16)

/-- R133: for any sequence of `RB` commands in which no pop finds the buffer empty, from any state of the unit, `RB` gives the
responses of a FIFO queue of capacity `N − 1`, and its resident bytes are what the queue then holds. From reset the queue is empty. -/
def Obligations.RingBufferIsAFifoQueue : Prop :=
  (∀ (is : List Instr) (s : State) (rs : List Rsp) (q : List Byte), s.cfg.Valid → RbOk s →
    queueRun (s.cfg.nRb - 1) is (rbResident s) = some (rs, q) →
    ∃ t, execAll is s = .next t ∧ t.answers = s.answers ++ rs ∧ rbResident t = q ∧ q.length ≤ s.cfg.nRb - 1) ∧
  (∀ cfg : Config, rbResident (State.resetWith cfg) = [])

/-! ### Unit TX -/

/-- R145: `TX.ENQ`, both cases, with its frame: no flag and no descriptor field is touched, so no transfer starts. -/
def Obligations.TxEnqStoresAndAdvances : Prop :=
  ∀ (s : State) (b : Byte), s.cfg.Valid → TxOk s →
    (inc s.cfg.nTx s.tx.head.toNat = s.tx.tail.toNat →
      ∃ t, exec (.txEnq b) s = .next t ∧ OnlyAnswers s t ∧ AllBytesSame s t ∧ Answers s t .outOfMemory 0#16) ∧
    (inc s.cfg.nTx s.tx.head.toNat ≠ s.tx.tail.toNat →
      ∃ t, exec (.txEnq b) s = .next t ∧ OnlyTx s t ∧
        t.tx.head.toNat = inc s.cfg.nTx s.tx.head.toNat ∧ t.tx.tail = s.tx.tail ∧ t.tx.active = s.tx.active ∧
        t.tx.tc = s.tx.tc ∧ t.tx.src = s.tx.src ∧ t.tx.cnt = s.tx.cnt ∧
        byteAt t .tx s.tx.head.toNat = b ∧ BytesSameBut .tx s.tx.head.toNat s t ∧ Answers s t .ok 0#16)

/-- R77, R145 case (b) (D6): the byte is in its slot one micro-step before `TX.head` moves, and no step of another agent changes it there
in between. -/
def Obligations.EnqueueStoresBeforeHeadMoves : Prop :=
  ∀ (s : State) (h : Cursor) (rest : List Turn), Inv s →
    (∀ b, s.sched = .host :: rest → s.host = .txEnqS2 h b →
      ∃ t, step s = .next t ∧ t.host = .txEnqS3 h ∧ byteAt t .tx h.toNat = b ∧ BytesSameBut .tx h.toNat s t ∧
        t.tx.head = s.tx.head ∧ t.tx.tail = s.tx.tail ∧ t.answers = s.answers) ∧
    (∀ turn t, s.sched = turn :: rest → turn ≠ .host → turn ≠ .reset → s.host = .txEnqS3 h → step s = .next t →
      byteAt t .tx h.toNat = byteAt s .tx h.toNat ∧ t.host = .txEnqS3 h) ∧
    (s.sched = .host :: rest → s.host = .txEnqS3 h →
      ∃ t, step s = .next t ∧ t.host = .idle ∧ AllBytesSame s t ∧ t.tx.head.toNat = inc s.cfg.nTx h.toNat ∧
        t.tx.tail = s.tx.tail ∧ Answers s t .ok 0#16)

/-- R146, as the whole operation: `TX.START`, its three cases, with their frames. -/
def Obligations.TxStartArmsCommitsAndStarts : Prop :=
  encode .txStart = 0x110000000000#48 ∧ ∀ s : State, s.cfg.Valid → TxOk s →
    (s.tx.active = true →
      ∃ t, exec .txStart s = .next t ∧ OnlyAnswers s t ∧ AllBytesSame s t ∧ Answers s t .busy 0#16) ∧
    (s.tx.active = false → s.tx.head = s.tx.tail →
      ∃ t, exec .txStart s = .next t ∧ OnlyAnswers s t ∧ AllBytesSame s t ∧ Answers s t .empty 0#16) ∧
    (s.tx.active = false → s.tx.head ≠ s.tx.tail →
      ∃ t, exec .txStart s = .next t ∧ OnlyTx s t ∧ AllBytesSame s t ∧ Answers s t .ok 0#16 ∧
        t.tx.active = true ∧ t.tx.tc = s.tx.tc ∧ t.tx.head = s.tx.head ∧ t.tx.src = s.tx.tail ∧
        t.tx.cnt.toNat = min (cursorDist s.cfg.nTx s.tx.head.toNat s.tx.tail.toNat) (s.cfg.nTx - s.tx.tail.toNat) ∧
        t.tx.tail.toNat = (s.tx.tail.toNat + t.tx.cnt.toNat) % s.cfg.nTx ∧
        cursorDist s.cfg.nTx t.tx.head.toNat t.tx.tail.toNat =
          cursorDist s.cfg.nTx s.tx.head.toNat s.tx.tail.toNat - t.tx.cnt.toNat)

/-- R149, R209: `TX.EVT`, spurious, qualifying with nothing left, and qualifying with bytes left, which it chains (D11 for `Ok`). -/
def Obligations.TxEvtAcknowledgesAndChains : Prop :=
  ∀ s : State, s.cfg.Valid → TxOk s →
    (s.tx.tc = false →
      ∃ t, exec .txEvt s = .next t ∧ OnlyAnswers s t ∧ AllBytesSame s t ∧ Answers s t .fail 0#16) ∧
    (s.tx.tc = true → s.tx.head = s.tx.tail →
      ∃ t, exec .txEvt s = .next t ∧ OnlyTx s t ∧ AllBytesSame s t ∧ Answers s t .ok 0#16 ∧
        t.tx.tc = false ∧ t.tx.active = false ∧ t.tx.head = s.tx.head ∧ t.tx.tail = s.tx.tail ∧
        t.tx.src = s.tx.src ∧ t.tx.cnt = s.tx.cnt) ∧
    (s.tx.tc = true → s.tx.head ≠ s.tx.tail →
      ∃ t, exec .txEvt s = .next t ∧ OnlyTx s t ∧ AllBytesSame s t ∧ Answers s t .ok 0#16 ∧
        t.tx.tc = false ∧ t.tx.active = true ∧ t.tx.head = s.tx.head ∧ t.tx.src = s.tx.tail ∧
        t.tx.cnt.toNat = min (cursorDist s.cfg.nTx s.tx.head.toNat s.tx.tail.toNat) (s.cfg.nTx - s.tx.tail.toNat) ∧
        t.tx.tail.toNat = (s.tx.tail.toNat + t.tx.cnt.toNat) % s.cfg.nTx)

/-- R150 (D10): an enabled `XTX` step sends the byte now at `TX.src`, moves the descriptor by one, raises the flag with the last
byte, and touches nothing else. -/
def Obligations.XtxMovesOneByte : Prop :=
  ∀ (s : State) (rest : List Turn), Inv s → s.sched = .xtx :: rest → s.tx.active = true → 0 < s.tx.cnt.toNat →
    ∃ t, step s = .next t ∧ t.txOut = s.txOut ++ [byteAt s .tx s.tx.src.toNat] ∧
      t.tx.src.toNat = s.tx.src.toNat + 1 ∧ t.tx.cnt.toNat = s.tx.cnt.toNat - 1 ∧
      (t.tx.tc = true ↔ t.tx.cnt = 0#16) ∧ t.tx.head = s.tx.head ∧ t.tx.tail = s.tx.tail ∧ t.tx.active = true ∧
      AllBytesSame s t ∧ SameRest (s.setSched rest) t ∧ t.rb = s.rb ∧ t.rx = s.rx ∧ t.led = s.led ∧
      t.ledOut = s.ledOut ∧ t.answers = s.answers

/-- R142: outside the hazard of R240 no turn but a reset loses, repeats or reorders a byte, wherever `HOST` stands: the bytes sent followed
by the unsent ones grow by exactly the byte of an accepted `TX.ENQ`, in the micro-step s3 that moves `TX.head` or in the whole-operation turn
(log 5), and what has been sent stays sent. The premise on the hazard is asked only of a turn that stores a byte. -/
def Obligations.TransmitKeepsEnqueueOrder : Prop :=
  ∀ (s t : State) (turn : Turn) (rest : List Turn), Inv s → s.sched = turn :: rest → turn ≠ .reset →
    (enqueueStores turn s = true → txUnsentCount s ≤ s.cfg.nTx - 1) →
    step s = .next t → txStream t = txStream s ++ acceptedByTurn turn s ∧ s.txOut <+: t.txOut

/-- R143, R151: one `TX.START` flushes any backlog in at most two transfers, the second chained by the completion event: after the
engine and the handler have had their turns, the resident bytes have been sent in order and the channel is Idle and empty. -/
def Obligations.OneStartFlushesTheBacklog : Prop :=
  ∀ (s : State) (ws : List Cmd), Inv s → s.host = .idle → s.tx.active = false → s.tx.head ≠ s.tx.tail →
    s.program = encode .txStart :: ws →
    s.sched = .hostOp :: (List.replicate (run s.cfg.nTx s.tx.head.toNat s.tx.tail.toNat) .xtx ++ .evt .tx ::
      (List.replicate (cursorDist s.cfg.nTx s.tx.head.toNat s.tx.tail.toNat -
        run s.cfg.nTx s.tx.head.toNat s.tx.tail.toNat) .xtx ++ [.evt .tx])) →
    ∃ t, Host.Core.run core (cursorDist s.cfg.nTx s.tx.head.toNat s.tx.tail.toNat + 3) s = .next t ∧
      t.txOut = s.txOut ++ txResident s ∧ t.tx.active = false ∧ t.tx.tc = false ∧
      t.tx.head = s.tx.head ∧ t.tx.tail = s.tx.head ∧ t.sched = []

/-- R240, U6: a `TX.ENQ` that finds a free slot puts its byte behind the resident ones; the run in flight is as before when at most `N − 1`
bytes are unsent, and exactly when `N` or more are, the slot is one still to be sent and the new byte takes the old one's place there. One
that finds the buffer full overwrites nothing. The micro-step s2, at which the store happens, does the same to the run in flight. -/
def Obligations.EnqueueOverwritesExactlyWhenUnsentReachesN : Prop :=
  (∀ (s : State) (b : Byte), Inv s → outsideTxStart s.host = true →
    (inc s.cfg.nTx s.tx.head.toNat ≠ s.tx.tail.toNat →
      ∃ t, exec (.txEnq b) s = .next t ∧ Answers s t .ok 0#16 ∧ txResident t = txResident s ++ [b] ∧
        ((s.tx.src.toNat ≤ s.tx.head.toNat ∧ s.tx.head.toNat < s.tx.src.toNat + s.tx.cnt.toNat) ↔
          s.cfg.nTx ≤ txUnsentCount s) ∧
        (txUnsentCount s ≤ s.cfg.nTx - 1 → txInFlight t = txInFlight s) ∧
        (s.cfg.nTx ≤ txUnsentCount s → txInFlight t = (txInFlight s).set (s.tx.head.toNat - s.tx.src.toNat) b)) ∧
    (inc s.cfg.nTx s.tx.head.toNat = s.tx.tail.toNat →
      ∃ t, exec (.txEnq b) s = .next t ∧ Answers s t .outOfMemory 0#16 ∧ txInFlight t = txInFlight s ∧
        txResident t = txResident s)) ∧
  (∀ (s : State) (h : Cursor) (b : Byte) (rest : List Turn), Inv s → s.sched = .host :: rest → s.host = .txEnqS2 h b →
    ∃ t, step s = .next t ∧ txResident t = txResident s ∧
      (txUnsentCount s ≤ s.cfg.nTx - 1 → txInFlight t = txInFlight s) ∧
      (s.cfg.nTx ≤ txUnsentCount s → txInFlight t = (txInFlight s).set (s.tx.head.toNat - s.tx.src.toNat) b))

/-- R29(e): the in-flight slots and the resident slots are disjoint as long as the unsent bytes number at most `N`. -/
def Obligations.InFlightAndResidentSlotsDisjoint : Prop :=
  ∀ s : State, Inv s → outsideTxStart s.host = true → s.tx.active = true → txUnsentCount s ≤ s.cfg.nTx →
    ∀ i j, i < s.tx.cnt.toNat → j < cursorDist s.cfg.nTx s.tx.head.toNat s.tx.tail.toNat →
      s.tx.src.toNat + i ≠ (s.tx.tail.toNat + j) % s.cfg.nTx

/-- R147, R163(e), R189(d): between the micro-steps of a `TX.START`, of a `RX.START` and of a `LED.UPDATE` no step of another agent writes
anything of that unit, its memory included. -/
def Obligations.ArmingIsUndisturbed : Prop :=
  ∀ (s t : State) (turn : Turn) (rest : List Turn), Inv s → s.sched = turn :: rest → turn ≠ .host → turn ≠ .reset →
    step s = .next t →
    ((s.host = .txStartS2 ∨ (∃ a r, s.host = .txStartS3 a r) ∨ (∃ a r, s.host = .txStartS4 a r) ∨ s.host = .txStartS5) →
      t.tx = s.tx ∧ t.txOut = s.txOut ∧ t.host = s.host) ∧
    ((s.host = .rxStartS2 ∨ s.host = .rxStartS3 ∨ s.host = .rxStartS4) → t.rx = s.rx ∧ t.host = s.host) ∧
    ((s.host = .ledUpdateS2 ∨ s.host = .ledUpdateS3 ∨ s.host = .ledUpdateS4 ∨ s.host = .ledUpdateS5) →
      t.led = s.led ∧ t.ledOut = s.ledOut ∧ t.host = s.host)

/-! ### Unit RX -/

/-- R163 (D12), U3: `RX.START` from Stopped, with its frame; while Running it is refused. -/
def Obligations.RxStartArmsTheWholeBuffer : Prop :=
  ∀ s : State, s.cfg.Valid →
    (s.rx.run = false →
      ∃ t, exec .rxStart s = .next t ∧ OnlyRx s t ∧ AllBytesSame s t ∧ Answers s t .ok 0#16 ∧
        t.rx.rem.toNat = s.cfg.nRx ∧ t.rx.tail = 0#16 ∧ t.rx.run = true) ∧
    (s.rx.run = true → exec .rxStart s = .refused .rxStartWhileRunning)

/-- R164 (D13): `RX.STOP` clears `RX.run` and nothing else, Stopped or Running. -/
def Obligations.RxStopOnlyClearsRun : Prop :=
  ∀ s : State, ∃ t, exec .rxStop s = .next t ∧ OnlyRx s t ∧ AllBytesSame s t ∧ Answers s t .ok 0#16 ∧
    t.rx.run = false ∧ t.rx.rem = s.rx.rem ∧ t.rx.tail = s.rx.tail

/-- R161, whole, and R165's operation: `RX.AVAIL` answers the distance of the virtual head `(N − rem) mod N`, which is `N − rem`, from
`RX.tail`; that is `(N − rem − tail) mod N`, the non-negative remainder, at most `N − 1`. It changes nothing. -/
def Obligations.RxAvailIsTheVirtualHeadDistance : Prop :=
  ∀ s : State, s.cfg.Valid → RxOk s →
    (s.cfg.nRx - s.rx.rem.toNat) % s.cfg.nRx = s.cfg.nRx - s.rx.rem.toNat ∧
    ∃ t v, exec .rxAvail s = .next t ∧ OnlyAnswers s t ∧ AllBytesSame s t ∧ Answers s t .ok v ∧
      v.toNat = cursorDist s.cfg.nRx ((s.cfg.nRx - s.rx.rem.toNat) % s.cfg.nRx) s.rx.tail.toNat ∧
      (v.toNat : Int) = ((s.cfg.nRx : Int) - s.rx.rem.toNat - s.rx.tail.toNat) % s.cfg.nRx ∧ v.toNat ≤ s.cfg.nRx - 1

/-- R166, as the whole operation: `RX.READ` never fails, Stopped or Running, empty or not: it answers the byte at `RX.tail` and advances
`RX.tail`; on an empty buffer the count is `N − 1` afterwards. -/
def Obligations.RxReadNeverFails : Prop :=
  encode .rxRead = 0x230000000000#48 ∧ ∀ s : State, s.cfg.Valid → RxOk s →
    ∃ t, exec .rxRead s = .next t ∧ OnlyRx s t ∧ AllBytesSame s t ∧
      Answers s t .ok ((byteAt s .rx s.rx.tail.toNat).setWidth 16) ∧
      t.rx.tail.toNat = inc s.cfg.nRx s.rx.tail.toNat ∧ t.rx.rem = s.rx.rem ∧ t.rx.run = s.rx.run ∧
      (rxCount s = 0 → rxCount t = s.cfg.nRx - 1)

/-- R167 (D14): an enabled `XRX` step stores the next byte of `RX.in` at `N − RX.rem`, counts down or reloads, and touches nothing else. -/
def Obligations.XrxStoresOneByte : Prop :=
  ∀ (s : State) (b : Byte) (bs : List Byte) (rest : List Turn), Inv s → s.sched = .xrx :: rest → s.rx.run = true →
    s.rxIn = b :: bs →
    ∃ t, step s = .next t ∧ t.rxIn = bs ∧ byteAt t .rx (s.cfg.nRx - s.rx.rem.toNat) = b ∧
      BytesSameBut .rx (s.cfg.nRx - s.rx.rem.toNat) s t ∧
      t.rx.rem.toNat = (if s.rx.rem.toNat = 1 then s.cfg.nRx else s.rx.rem.toNat - 1) ∧
      t.rx.tail = s.rx.tail ∧ t.rx.run = true ∧ t.cfg = s.cfg ∧ t.host = s.host ∧ t.program = s.program ∧ t.sched = rest ∧
      t.epoch = s.epoch ∧ t.draws = s.draws ∧ t.rb = s.rb ∧ t.tx = s.tx ∧ t.led = s.led ∧ t.txOut = s.txOut ∧
      t.ledOut = s.ledOut ∧ t.answers = s.answers

/-- R168, R170: after `RX.START`, `w` bytes received and `r` reads in any order, `rem = N − (w mod N)`, `tail = r mod N` and `RX.AVAIL`
answers `(w − r) mod N`; with no reads and `w < N` that is `w`. -/
def Obligations.RxAvailCountsReceivedMinusRead : Prop :=
  ∀ (s : State) (as : List RxAct), s.cfg.Valid → RxOk s → s.rx.run = false →
    ∃ s0 t u v, exec .rxStart s = .next s0 ∧ rxActs as s0 = .next t ∧ exec .rxAvail t = .next u ∧ Answers t u .ok v ∧
      t.rx.rem.toNat = s.cfg.nRx - rxWritten as % s.cfg.nRx ∧ t.rx.tail.toNat = rxRead as % s.cfg.nRx ∧
      (v.toNat : Int) = ((rxWritten as : Int) - rxRead as) % s.cfg.nRx ∧
      (rxRead as = 0 → rxWritten as < s.cfg.nRx → v.toNat = rxWritten as)

/-- R162: with no overrun and no read of an empty buffer, bytes are read in the order they were received. -/
def Obligations.RxKeepsReceiveOrder : Prop :=
  ∀ s : State, s.cfg.Valid → RxOk s →
    (∀ b, s.rx.run = true → rxCount s < s.cfg.nRx - 1 →
      ∃ t, rxAct (.receive b) s = .next t ∧ rxUnread t = rxUnread s ++ [b]) ∧
    (∀ v q, rxUnread s = v :: q → ∃ t, exec .rxRead s = .next t ∧ Answers s t .ok (v.setWidth 16) ∧ rxUnread t = q)

/-! ### Unit LED -/

/-- R187: `LED.CLEAR` leaves `CODE0` at every index and touches no flag, enable, descriptor, phase or other memory. -/
def Obligations.LedClearFillsWithCode0 : Prop :=
  ∀ s : State, ∃ t, exec .ledClear s = .next t ∧ OnlyLed s t ∧ t.ledOut = s.ledOut ∧ Answers s t .ok 0#16 ∧
    (∀ i, i < 24 * s.cfg.stripLength → byteAt t .led i = s.cfg.code0) ∧
    (∀ u i, ¬ (u = .led ∧ i < 24 * s.cfg.stripLength) → byteAt t u i = byteAt s u i) ∧
    t.led.inflight = s.led.inflight ∧ t.led.tc = s.led.tc ∧ t.led.xferEn = s.led.xferEn ∧ t.led.genEn = s.led.genEn ∧
    t.led.phase = s.led.phase ∧ t.led.pos = s.led.pos ∧ t.led.cnt = s.led.cnt

/-- R188, as the whole operation: `LED.WRITE idx, c` stores, for each of the 24 bits, most significant first, `CODE1` if it is set, else
`CODE0`, into the 24 bytes of LED `idx`, and touches nothing else. -/
def Obligations.LedWriteStoresTheColour : Prop :=
  (∀ (idx : BitVec 16) (c : Colour), encode (.ledWrite idx c) = 0x31#8 ++ idx ++ c) ∧
  ∀ (s : State) (idx : BitVec 16) (c : Colour), idx.toNat < s.cfg.stripLength →
    ∃ t, exec (.ledWrite idx c) s = .next t ∧ OnlyLed s t ∧ t.ledOut = s.ledOut ∧ Answers s t .ok 0#16 ∧
      (∀ b, b < 24 → byteAt t .led (24 * idx.toNat + b) = if c.getLsbD (23 - b) then s.cfg.code1 else s.cfg.code0) ∧
      (∀ u i, ¬ (u = .led ∧ 24 * idx.toNat ≤ i ∧ i < 24 * idx.toNat + 24) → byteAt t u i = byteAt s u i) ∧
      t.led.inflight = s.led.inflight ∧ t.led.tc = s.led.tc ∧ t.led.xferEn = s.led.xferEn ∧ t.led.genEn = s.led.genEn ∧
      t.led.phase = s.led.phase ∧ t.led.pos = s.led.pos ∧ t.led.cnt = s.led.cnt

/-- R67, R68: each micro-step of a `LED.WRITE` and of a `LED.CLEAR` stores one byte, in ascending order, so that other agents may step
in between: the first, in which an idle `HOST` presents the word, the later ones, and the last one, which returns. -/
def Obligations.EncoderStoresOneByteAMicroStep : Prop :=
  ∀ (s : State) (rest : List Turn), Inv s → s.sched = .host :: rest →
    (∀ idx c ws, s.host = .idle → s.program = encode (.ledWrite idx c) :: ws → idx.toNat < s.cfg.stripLength →
      ∃ t, step s = .next t ∧ byteAt t .led (24 * idx.toNat) = (if c.getLsbD 23 then s.cfg.code1 else s.cfg.code0) ∧
        BytesSameBut .led (24 * idx.toNat) s t ∧ t.led = { s.led with enc := t.led.enc } ∧ t.ledOut = s.ledOut ∧
        t.host = .ledWriteAt idx c 1 ∧ t.program = ws ∧ t.answers = s.answers) ∧
    (∀ ws, s.host = .idle → s.program = encode .ledClear :: ws →
      ∃ t, step s = .next t ∧ byteAt t .led 0 = s.cfg.code0 ∧ BytesSameBut .led 0 s t ∧
        t.led = { s.led with enc := t.led.enc } ∧ t.ledOut = s.ledOut ∧ t.host = .ledClearAt 1 ∧ t.program = ws ∧
        t.answers = s.answers) ∧
    (∀ idx c b, s.host = .ledWriteAt idx c b →
      ∃ t, step s = .next t ∧ byteAt t .led (24 * idx.toNat + b) = (if c.getLsbD (23 - b) then s.cfg.code1 else s.cfg.code0) ∧
        BytesSameBut .led (24 * idx.toNat + b) s t ∧ t.led = { s.led with enc := t.led.enc } ∧ t.ledOut = s.ledOut ∧
        (b < 23 → t.host = .ledWriteAt idx c (b + 1) ∧ t.answers = s.answers) ∧
        (b = 23 → t.host = .idle ∧ Answers s t .ok 0#16)) ∧
    (∀ i, s.host = .ledClearAt i →
      ∃ t, step s = .next t ∧ byteAt t .led i = s.cfg.code0 ∧ BytesSameBut .led i s t ∧
        t.led = { s.led with enc := t.led.enc } ∧ t.ledOut = s.ledOut ∧
        (i + 1 < s.cfg.frameBytes → t.host = .ledClearAt (i + 1) ∧ t.answers = s.answers) ∧
        (i + 1 = s.cfg.frameBytes → t.host = .idle ∧ Answers s t .ok 0#16))

/-- R189, R185: `LED.UPDATE` arms one transfer over the whole buffer; with a frame in flight, the event pending or not, it answers the
same and changes nothing. -/
def Obligations.LedUpdateArmsOrDrops : Prop :=
  ∀ s : State, s.cfg.Valid →
    (s.led.inflight = false →
      ∃ t, exec .ledUpdate s = .next t ∧ OnlyLed s t ∧ AllBytesSame s t ∧ Answers s t .ok 0#16 ∧
        t.ledOut = s.ledOut ++ [.frame] ∧ t.led.inflight = true ∧ t.led.pos = 0#21 ∧
        t.led.cnt.toNat = 24 * s.cfg.stripLength ∧ t.led.genEn = true ∧ t.led.xferEn = true ∧ t.led.tc = s.led.tc ∧
        t.led.phase = s.led.phase) ∧
    (s.led.inflight = true →
      ∃ t, exec .ledUpdate s = .next t ∧ OnlyAnswers s t ∧ AllBytesSame s t ∧ Answers s t .ok 0#16)

/-- R190 (D11, D17): `LED.EVT`, spurious and qualifying, with its frame. -/
def Obligations.LedEvtReturnsToIdle : Prop :=
  ∀ s : State,
    (s.led.tc = false →
      ∃ t, exec .ledEvt s = .next t ∧ OnlyAnswers s t ∧ AllBytesSame s t ∧ Answers s t .fail 0#16) ∧
    (s.led.tc = true →
      ∃ t, exec .ledEvt s = .next t ∧ OnlyLed s t ∧ AllBytesSame s t ∧ t.ledOut = s.ledOut ∧ Answers s t .ok 0#16 ∧
        t.led.tc = false ∧ t.led.xferEn = false ∧ t.led.genEn = false ∧ t.led.inflight = false ∧
        t.led.phase = s.cfg.phaseIdle ∧ t.led.pos = s.led.pos ∧ t.led.cnt = s.led.cnt)

/-- R192, R243 (D10): an enabled `XLED` step emits the code that is at `LED.pos` now, moves the descriptor by one, raises the flag with
the last one, and touches nothing else. The phase counter takes the free value of the draw (U9): nothing is said of which value it is. -/
def Obligations.XledEmitsOnePulse : Prop :=
  ∀ (s : State) (rest : List Turn), Inv s → s.sched = .xled :: rest → s.led.xferEn = true → s.led.genEn = true →
    0 < s.led.cnt.toNat →
    ∃ t, step s = .next t ∧ t.ledOut = s.ledOut ++ [.pulse (byteAt s .led s.led.pos.toNat)] ∧
      t.led.pos.toNat = s.led.pos.toNat + 1 ∧ t.led.cnt.toNat = s.led.cnt.toNat - 1 ∧
      (t.led.tc = true ↔ t.led.cnt = 0#21) ∧ t.led.inflight = s.led.inflight ∧ t.led.xferEn = true ∧ t.led.genEn = true ∧
      AllBytesSame s t ∧ t.cfg = s.cfg ∧ t.rxIn = s.rxIn ∧ t.host = s.host ∧ t.program = s.program ∧ t.sched = rest ∧
      t.epoch = s.epoch ∧ t.rb = s.rb ∧ t.tx = s.tx ∧ t.rx = s.rx ∧ t.txOut = s.txOut ∧ t.answers = s.answers

/-- R183, R189, R192: a frame that is left alone sends the mark and then the whole buffer, index 0 first, one pulse a byte, and stops by
itself with the completion event pending. -/
def Obligations.FrameSendsTheWholeBuffer : Prop :=
  ∀ s : State, Inv s → s.host = .idle → s.led.inflight = false →
    ∃ s0 t, exec .ledUpdate s = .next s0 ∧ engineSteps xledStep s.cfg.frameBytes s0 = .next t ∧
      t.ledOut = s.ledOut ++ .frame :: (encBytes s).map .pulse ∧ t.led.tc = true ∧ t.led.cnt = 0#21 ∧
      t.led.inflight = true ∧ xledStep t = .next t

/-- R181: once every byte of the encode buffer is one of the two codes, it stays so in every step but a reset. -/
def Obligations.EncodeBufferHoldsOnlyCodes : Prop :=
  ∀ (s t : State) (turn : Turn) (rest : List Turn), Inv s → s.sched = turn :: rest → turn ≠ .reset → step s = .next t →
    (∀ i, i < s.cfg.frameBytes → byteAt s .led i = s.cfg.code0 ∨ byteAt s .led i = s.cfg.code1) →
    ∀ i, i < t.cfg.frameBytes → byteAt t .led i = t.cfg.code0 ∨ byteAt t .led i = t.cfg.code1

/-- R184, whole: the state machine of `LED`: from Idle only `LED.UPDATE` leads to Transmitting, from there only a qualifying `LED.EVT`
leads back, and every other operation, `LED.CLEAR` and `LED.WRITE` among them, leaves the state as it is. -/
def Obligations.LedStateMachine : Prop :=
  ∀ (s t : State) (i : Instr), s.cfg.Valid → exec i s = .next t →
    (s.led.inflight = false → (t.led.inflight = true ↔ i = .ledUpdate)) ∧
    (s.led.inflight = true → (t.led.inflight = false ↔ i = .ledEvt ∧ s.led.tc = true)) ∧
    (s.led.inflight = true → i = .ledUpdate → OnlyAnswers s t)

/-! ### Statuses, flags, isolation -/

/-- R202, R203, R205, R206, whole, and R204's condition: every operation that goes on gives one response; each status but `Ok` is answered
exactly then and by nothing else, with value 0 and nothing changed, and `Timeout` never; `LED.UPDATE` answers `Ok` even with a frame in flight. -/
def Obligations.StatusesExactly : Prop :=
  ∀ (s t : State) (i : Instr), s.cfg.Valid → TxOk s → exec i s = .next t →
    (∃ st v, Answers s t st v ∧ st ≠ .timeout ∧ (st ≠ .ok → v = 0#16 ∧ OnlyAnswers s t)) ∧
    (Answers s t .busy 0#16 ↔ i = .txStart ∧ s.tx.active = true) ∧
    (Answers s t .empty 0#16 ↔ i = .txStart ∧ s.tx.active = false ∧ s.tx.head = s.tx.tail) ∧
    (Answers s t .outOfMemory 0#16 ↔
      ((∃ b, i = .rbPush b) ∧ inc s.cfg.nRb s.rb.head.toNat = s.rb.tail.toNat) ∨
      ((∃ b, i = .txEnq b) ∧ inc s.cfg.nTx s.tx.head.toNat = s.tx.tail.toNat)) ∧
    (Answers s t .fail 0#16 ↔ (i = .txEvt ∧ s.tx.tc = false) ∨ (i = .ledEvt ∧ s.led.tc = false)) ∧
    (i = .ledUpdate → Answers s t .ok 0#16)

/-- R43: a flag that an operation or an engine step changes is changed by one the table lists, in the direction the table lists. -/
def Obligations.FlagsChangeOnlyAsTheTableSays : Prop :=
  (∀ (s t : State) (i : Instr), exec i s = .next t →
    (t.tx.active ≠ s.tx.active → (s.tx.active = false ∧ i = .txStart) ∨ (s.tx.active = true ∧ i = .txEvt) ∨
      (s.tx.active = false ∧ i = .txEvt)) ∧
    (t.tx.tc ≠ s.tx.tc → s.tx.tc = true ∧ i = .txEvt) ∧
    (t.rx.run ≠ s.rx.run → (s.rx.run = false ∧ i = .rxStart) ∨ (s.rx.run = true ∧ i = .rxStop)) ∧
    (t.led.inflight ≠ s.led.inflight →
      (s.led.inflight = false ∧ i = .ledUpdate) ∨ (s.led.inflight = true ∧ i = .ledEvt)) ∧
    (t.led.tc ≠ s.led.tc → s.led.tc = true ∧ i = .ledEvt) ∧
    (t.led.xferEn ≠ s.led.xferEn → (s.led.xferEn = false ∧ i = .ledUpdate) ∨ (s.led.xferEn = true ∧ i = .ledEvt)) ∧
    (t.led.genEn ≠ s.led.genEn → (s.led.genEn = false ∧ i = .ledUpdate) ∨ (s.led.genEn = true ∧ i = .ledEvt))) ∧
  (∀ s t : State, xtxStep s = .next t →
    t.tx.active = s.tx.active ∧ (s.tx.tc = true → t.tx.tc = true) ∧ t.rx = s.rx ∧ t.led = s.led) ∧
  (∀ s t : State, xrxStep s = .next t → t.rx.run = s.rx.run ∧ t.tx = s.tx ∧ t.led = s.led) ∧
  (∀ s t : State, xledStep s = .next t →
    t.led.inflight = s.led.inflight ∧ t.led.xferEn = s.led.xferEn ∧ t.led.genEn = s.led.genEn ∧
      (s.led.tc = true → t.led.tc = true) ∧ t.tx = s.tx ∧ t.rx = s.rx)

/-- R20, R60, R209: an operation writes its own unit and nothing of another, no byte of another unit's memory included. -/
def Obligations.OperationsWriteTheirOwnUnit : Prop :=
  ∀ (s t : State) (i : Instr), exec i s = .next t →
    OnlyUnit (unitOf i) s t ∧ ∀ u j, u ≠ unitOf i → byteAt t u j = byteAt s u j

/-- R20: an operation reads nothing of another unit: in two states in which its own unit is the same it answers the same and leaves
the same, and where it stops in one it stops in the other. -/
def Obligations.OperationsReadTheirOwnUnit : Prop :=
  ∀ (s s' : State) (i : Instr), SameUnit (unitOf i) s s' →
    (∀ t, exec i s = .next t → ∃ t' r, exec i s' = .next t' ∧ SameUnit (unitOf i) t t' ∧
      t.answers = s.answers ++ [r] ∧ t'.answers = s'.answers ++ [r]) ∧
    (∀ f, exec i s = .fault f → exec i s' = .fault f) ∧ (∀ q, exec i s = .refused q → exec i s' = .refused q)

/-- R211 (D21): the order of the two handlers changes the final state of no unit. -/
def Obligations.EventHandlersCommute : Prop :=
  ∀ s : State, ∃ a b c d, exec .txEvt s = .next a ∧ exec .ledEvt a = .next b ∧ exec .ledEvt s = .next c ∧ exec .txEvt c = .next d ∧
    b.tx = d.tx ∧ b.led = d.led ∧ b.rb = d.rb ∧ b.rx = d.rx ∧ b.txOut = d.txOut ∧ b.ledOut = d.ledOut

/-! ### Reset and the invariant -/

/-- R48, R230 (D20): what a reset leaves in every register and in the streams `TX.out` and `LED.out`; an operation in progress is abandoned. The last
clause is the model's choice for what R48 calls unspecified and U7 "drawn once at reset" (log 2): every byte reads as the free value of
the new count of resets, which differs from the old one. -/
def Obligations.ResetLeavesTheListedValues : Prop :=
  ∀ (s : State) (rest : List Turn), s.cfg.Valid → s.sched = .reset :: rest →
    ∃ t, step s = .next t ∧ t.cfg = s.cfg ∧
      t.rb.head = 0#16 ∧ t.rb.tail = 0#16 ∧
      t.tx.head = 0#16 ∧ t.tx.tail = 0#16 ∧ t.tx.active = false ∧ t.tx.tc = false ∧ t.tx.src = 0#16 ∧ t.tx.cnt = 0#16 ∧
      t.rx.tail = 0#16 ∧ t.rx.run = false ∧ t.rx.rem.toNat = s.cfg.nRx ∧
      t.led.inflight = false ∧ t.led.tc = false ∧ t.led.xferEn = false ∧ t.led.genEn = false ∧
      t.led.phase = s.cfg.phaseIdle ∧ t.led.pos = 0#21 ∧ t.led.cnt = 0#21 ∧
      t.txOut = [] ∧ t.ledOut = [] ∧ t.host = .idle ∧
      (∀ u i, byteAt t u i = Config.freeByte t.epoch u i) ∧ t.epoch ≠ s.epoch

/-- R232: what the first operation after reset answers, for every valid set of parameters. The byte `RX.READ` returns is any byte. -/
def Obligations.FirstOperationAfterReset : Prop :=
  ∀ cfg : Config, cfg.Valid →
    (∃ t, exec .rbAvail (State.resetWith cfg) = .next t ∧ t.answers = [0x00000#20]) ∧
    (∃ t, exec .rbIsEmpty (State.resetWith cfg) = .next t ∧ t.answers = [0x00001#20]) ∧
    (∃ t, exec .rbIsFull (State.resetWith cfg) = .next t ∧ t.answers = [0x00000#20]) ∧
    (∀ b, ∃ t, exec (.rbPush b) (State.resetWith cfg) = .next t ∧ t.answers = [0x00000#20]) ∧
    exec .rbPop (State.resetWith cfg) = .fault .popEmpty ∧
    (∀ b, ∃ t, exec (.txEnq b) (State.resetWith cfg) = .next t ∧ t.answers = [0x00000#20]) ∧
    (∃ t, exec .txStart (State.resetWith cfg) = .next t ∧ t.answers = [0x20000#20]) ∧
    (∃ t, exec .txEvt (State.resetWith cfg) = .next t ∧ t.answers = [0x50000#20]) ∧
    (∃ t, exec .rxAvail (State.resetWith cfg) = .next t ∧ t.answers = [0x00000#20]) ∧
    (∃ t v, exec .rxRead (State.resetWith cfg) = .next t ∧ t.answers = [response .ok (byteValue v)] ∧ t.rx.tail = 1#16) ∧
    (∃ t, exec .rxStop (State.resetWith cfg) = .next t ∧ t.answers = [0x00000#20] ∧ t.rx = (State.resetWith cfg).rx) ∧
    (∃ t, exec .rxStart (State.resetWith cfg) = .next t ∧ t.answers = [0x00000#20] ∧ t.rx.run = true) ∧
    (∃ t, exec .ledUpdate (State.resetWith cfg) = .next t ∧ t.answers = [0x00000#20] ∧ t.ledOut = [.frame]) ∧
    (∃ t, exec .ledEvt (State.resetWith cfg) = .next t ∧ t.answers = [0x50000#20])

/-- The invariant holds after reset, for every valid set of parameters and for the ones State.reset carries (log 1). -/
def Obligations.ResetMeetsTheInvariant : Prop :=
  (∀ cfg : Config, cfg.Valid → Inv (State.resetWith cfg)) ∧ Inv State.reset

/-- R24(a), R29(a) to (d), R33(a), (b), R40, R9: from every state that meets it, reached or not, every step of every agent leads to one
that meets it: every register stays in its range, every memory canonical, and the flags as the rules say at the points they name. -/
def Obligations.EveryStepKeepsTheInvariant : Prop :=
  ∀ s t : State, Inv s → step s = .next t → Inv t

/-- R12, R129, R163: the machine stops only where the spec gives no effect: on a pop of an empty buffer and on a start while Running. No
step forms an index outside a buffer. -/
def Obligations.StepsStopOnlyWhereTheSpecIsUndefined : Prop :=
  ∀ s : State, Inv s →
    (∀ f, step s = .fault f → f = .popEmpty ∧ s.rb.head = s.rb.tail) ∧
    (∀ q, step s = .refused q → q = .rxStartWhileRunning ∧ s.rx.run = true)
end

