-- ==== Sys2Proof/Laws/Cursor.lean ====
section
/-! SUPPORT. Ranges of the cursor arithmetic, and what a cursor register holds after it has been written. -/

namespace Sys2Proof.Machine

theorem inc_lt {n i : Nat} (h : i < n) : inc n i < n := by
  unfold inc; split <;> omega

theorem cursorDist_lt {n h t : Nat} (hh : h < n) (ht : t < n) : cursorDist n h t < n := by
  unfold cursorDist; split <;> omega

theorem run_le_cursorDist (n h t : Nat) : run n h t ≤ cursorDist n h t := Nat.min_le_left _ _

theorem add_run_le {n t : Nat} (h : Nat) (ht : t < n) : t + run n h t ≤ n := by
  have : run n h t ≤ n - t := Nat.min_le_right _ _
  omega

theorem vhead_eq {n rem : Nat} (h1 : 1 ≤ rem) (h2 : rem ≤ n) : vhead n rem = n - rem :=
  Nat.mod_eq_of_lt (by omega)

/-- A number below 2^16 fits a cursor register. -/
theorem cursor_toNat {x : Nat} (h : x < 65536) : (BitVec.ofNat 16 x).toNat = x := by
  rw [BitVec.toNat_ofNat]; exact Nat.mod_eq_of_lt h

/-- A number below 2^21 fits a register of the LED descriptor. -/
theorem ledCount_toNat {x : Nat} (h : x < 2097152) : (BitVec.ofNat 21 x).toNat = x := by
  rw [BitVec.toNat_ofNat]; exact Nat.mod_eq_of_lt h

/-- Advancing a cursor register gives `inc` of its value: the register is wide enough. -/
theorem incCursor_toNat {n : Nat} {c : Cursor} (hn : n ≤ 65535) (hc : c.toNat < n) :
    (incCursor n c).toNat = inc n c.toNat := by
  have := inc_lt hc
  exact cursor_toNat (by omega)

@[simp] theorem isEmpty_iff (h t : Cursor) : isEmpty h t = true ↔ h = t := by simp [isEmpty]

@[simp] theorem isFull_iff (n : Nat) (h t : Cursor) : isFull n h t = true ↔ inc n h.toNat = t.toNat := by simp [isFull]

theorem isEmpty_eq_false (h t : Cursor) : isEmpty h t = false ↔ h ≠ t := by simp [isEmpty]

theorem isFull_eq_false (n : Nat) (h t : Cursor) : isFull n h t = false ↔ inc n h.toNat ≠ t.toNat := by simp [isFull]

end Sys2Proof.Machine
end

