-- ==== Sys2Proof/Laws/State.lean ====
section
/-! SUPPORT. Every field after every update of State, and the combinators of Result, so that no proof unfolds a record update. -/

namespace Sys2Proof.Machine

/-! ### State.setRb -/

@[simp] theorem State.setRb_cfg (s : State) (u : Rb) : (s.setRb u).cfg = s.cfg := rfl
@[simp] theorem State.setRb_rb (s : State) (u : Rb) : (s.setRb u).rb = u := rfl
@[simp] theorem State.setRb_tx (s : State) (u : Rb) : (s.setRb u).tx = s.tx := rfl
@[simp] theorem State.setRb_rx (s : State) (u : Rb) : (s.setRb u).rx = s.rx := rfl
@[simp] theorem State.setRb_led (s : State) (u : Rb) : (s.setRb u).led = s.led := rfl
@[simp] theorem State.setRb_txOut (s : State) (u : Rb) : (s.setRb u).txOut = s.txOut := rfl
@[simp] theorem State.setRb_rxIn (s : State) (u : Rb) : (s.setRb u).rxIn = s.rxIn := rfl
@[simp] theorem State.setRb_ledOut (s : State) (u : Rb) : (s.setRb u).ledOut = s.ledOut := rfl
@[simp] theorem State.setRb_answers (s : State) (u : Rb) : (s.setRb u).answers = s.answers := rfl
@[simp] theorem State.setRb_host (s : State) (u : Rb) : (s.setRb u).host = s.host := rfl
@[simp] theorem State.setRb_program (s : State) (u : Rb) : (s.setRb u).program = s.program := rfl
@[simp] theorem State.setRb_sched (s : State) (u : Rb) : (s.setRb u).sched = s.sched := rfl
@[simp] theorem State.setRb_epoch (s : State) (u : Rb) : (s.setRb u).epoch = s.epoch := rfl
@[simp] theorem State.setRb_draws (s : State) (u : Rb) : (s.setRb u).draws = s.draws := rfl

/-! ### State.setTx -/

@[simp] theorem State.setTx_cfg (s : State) (u : Tx) : (s.setTx u).cfg = s.cfg := rfl
@[simp] theorem State.setTx_rb (s : State) (u : Tx) : (s.setTx u).rb = s.rb := rfl
@[simp] theorem State.setTx_tx (s : State) (u : Tx) : (s.setTx u).tx = u := rfl
@[simp] theorem State.setTx_rx (s : State) (u : Tx) : (s.setTx u).rx = s.rx := rfl
@[simp] theorem State.setTx_led (s : State) (u : Tx) : (s.setTx u).led = s.led := rfl
@[simp] theorem State.setTx_txOut (s : State) (u : Tx) : (s.setTx u).txOut = s.txOut := rfl
@[simp] theorem State.setTx_rxIn (s : State) (u : Tx) : (s.setTx u).rxIn = s.rxIn := rfl
@[simp] theorem State.setTx_ledOut (s : State) (u : Tx) : (s.setTx u).ledOut = s.ledOut := rfl
@[simp] theorem State.setTx_answers (s : State) (u : Tx) : (s.setTx u).answers = s.answers := rfl
@[simp] theorem State.setTx_host (s : State) (u : Tx) : (s.setTx u).host = s.host := rfl
@[simp] theorem State.setTx_program (s : State) (u : Tx) : (s.setTx u).program = s.program := rfl
@[simp] theorem State.setTx_sched (s : State) (u : Tx) : (s.setTx u).sched = s.sched := rfl
@[simp] theorem State.setTx_epoch (s : State) (u : Tx) : (s.setTx u).epoch = s.epoch := rfl
@[simp] theorem State.setTx_draws (s : State) (u : Tx) : (s.setTx u).draws = s.draws := rfl

/-! ### State.setRx -/

@[simp] theorem State.setRx_cfg (s : State) (u : Rx) : (s.setRx u).cfg = s.cfg := rfl
@[simp] theorem State.setRx_rb (s : State) (u : Rx) : (s.setRx u).rb = s.rb := rfl
@[simp] theorem State.setRx_tx (s : State) (u : Rx) : (s.setRx u).tx = s.tx := rfl
@[simp] theorem State.setRx_rx (s : State) (u : Rx) : (s.setRx u).rx = u := rfl
@[simp] theorem State.setRx_led (s : State) (u : Rx) : (s.setRx u).led = s.led := rfl
@[simp] theorem State.setRx_txOut (s : State) (u : Rx) : (s.setRx u).txOut = s.txOut := rfl
@[simp] theorem State.setRx_rxIn (s : State) (u : Rx) : (s.setRx u).rxIn = s.rxIn := rfl
@[simp] theorem State.setRx_ledOut (s : State) (u : Rx) : (s.setRx u).ledOut = s.ledOut := rfl
@[simp] theorem State.setRx_answers (s : State) (u : Rx) : (s.setRx u).answers = s.answers := rfl
@[simp] theorem State.setRx_host (s : State) (u : Rx) : (s.setRx u).host = s.host := rfl
@[simp] theorem State.setRx_program (s : State) (u : Rx) : (s.setRx u).program = s.program := rfl
@[simp] theorem State.setRx_sched (s : State) (u : Rx) : (s.setRx u).sched = s.sched := rfl
@[simp] theorem State.setRx_epoch (s : State) (u : Rx) : (s.setRx u).epoch = s.epoch := rfl
@[simp] theorem State.setRx_draws (s : State) (u : Rx) : (s.setRx u).draws = s.draws := rfl

/-! ### State.setLed -/

@[simp] theorem State.setLed_cfg (s : State) (u : Led) : (s.setLed u).cfg = s.cfg := rfl
@[simp] theorem State.setLed_rb (s : State) (u : Led) : (s.setLed u).rb = s.rb := rfl
@[simp] theorem State.setLed_tx (s : State) (u : Led) : (s.setLed u).tx = s.tx := rfl
@[simp] theorem State.setLed_rx (s : State) (u : Led) : (s.setLed u).rx = s.rx := rfl
@[simp] theorem State.setLed_led (s : State) (u : Led) : (s.setLed u).led = u := rfl
@[simp] theorem State.setLed_txOut (s : State) (u : Led) : (s.setLed u).txOut = s.txOut := rfl
@[simp] theorem State.setLed_rxIn (s : State) (u : Led) : (s.setLed u).rxIn = s.rxIn := rfl
@[simp] theorem State.setLed_ledOut (s : State) (u : Led) : (s.setLed u).ledOut = s.ledOut := rfl
@[simp] theorem State.setLed_answers (s : State) (u : Led) : (s.setLed u).answers = s.answers := rfl
@[simp] theorem State.setLed_host (s : State) (u : Led) : (s.setLed u).host = s.host := rfl
@[simp] theorem State.setLed_program (s : State) (u : Led) : (s.setLed u).program = s.program := rfl
@[simp] theorem State.setLed_sched (s : State) (u : Led) : (s.setLed u).sched = s.sched := rfl
@[simp] theorem State.setLed_epoch (s : State) (u : Led) : (s.setLed u).epoch = s.epoch := rfl
@[simp] theorem State.setLed_draws (s : State) (u : Led) : (s.setLed u).draws = s.draws := rfl

/-! ### State.setHost -/

@[simp] theorem State.setHost_cfg (s : State) (p : HostPos) : (s.setHost p).cfg = s.cfg := rfl
@[simp] theorem State.setHost_rb (s : State) (p : HostPos) : (s.setHost p).rb = s.rb := rfl
@[simp] theorem State.setHost_tx (s : State) (p : HostPos) : (s.setHost p).tx = s.tx := rfl
@[simp] theorem State.setHost_rx (s : State) (p : HostPos) : (s.setHost p).rx = s.rx := rfl
@[simp] theorem State.setHost_led (s : State) (p : HostPos) : (s.setHost p).led = s.led := rfl
@[simp] theorem State.setHost_txOut (s : State) (p : HostPos) : (s.setHost p).txOut = s.txOut := rfl
@[simp] theorem State.setHost_rxIn (s : State) (p : HostPos) : (s.setHost p).rxIn = s.rxIn := rfl
@[simp] theorem State.setHost_ledOut (s : State) (p : HostPos) : (s.setHost p).ledOut = s.ledOut := rfl
@[simp] theorem State.setHost_answers (s : State) (p : HostPos) : (s.setHost p).answers = s.answers := rfl
@[simp] theorem State.setHost_host (s : State) (p : HostPos) : (s.setHost p).host = p := rfl
@[simp] theorem State.setHost_program (s : State) (p : HostPos) : (s.setHost p).program = s.program := rfl
@[simp] theorem State.setHost_sched (s : State) (p : HostPos) : (s.setHost p).sched = s.sched := rfl
@[simp] theorem State.setHost_epoch (s : State) (p : HostPos) : (s.setHost p).epoch = s.epoch := rfl
@[simp] theorem State.setHost_draws (s : State) (p : HostPos) : (s.setHost p).draws = s.draws := rfl

/-! ### State.setProgram -/

@[simp] theorem State.setProgram_cfg (s : State) (l : List Cmd) : (s.setProgram l).cfg = s.cfg := rfl
@[simp] theorem State.setProgram_rb (s : State) (l : List Cmd) : (s.setProgram l).rb = s.rb := rfl
@[simp] theorem State.setProgram_tx (s : State) (l : List Cmd) : (s.setProgram l).tx = s.tx := rfl
@[simp] theorem State.setProgram_rx (s : State) (l : List Cmd) : (s.setProgram l).rx = s.rx := rfl
@[simp] theorem State.setProgram_led (s : State) (l : List Cmd) : (s.setProgram l).led = s.led := rfl
@[simp] theorem State.setProgram_txOut (s : State) (l : List Cmd) : (s.setProgram l).txOut = s.txOut := rfl
@[simp] theorem State.setProgram_rxIn (s : State) (l : List Cmd) : (s.setProgram l).rxIn = s.rxIn := rfl
@[simp] theorem State.setProgram_ledOut (s : State) (l : List Cmd) : (s.setProgram l).ledOut = s.ledOut := rfl
@[simp] theorem State.setProgram_answers (s : State) (l : List Cmd) : (s.setProgram l).answers = s.answers := rfl
@[simp] theorem State.setProgram_host (s : State) (l : List Cmd) : (s.setProgram l).host = s.host := rfl
@[simp] theorem State.setProgram_program (s : State) (l : List Cmd) : (s.setProgram l).program = l := rfl
@[simp] theorem State.setProgram_sched (s : State) (l : List Cmd) : (s.setProgram l).sched = s.sched := rfl
@[simp] theorem State.setProgram_epoch (s : State) (l : List Cmd) : (s.setProgram l).epoch = s.epoch := rfl
@[simp] theorem State.setProgram_draws (s : State) (l : List Cmd) : (s.setProgram l).draws = s.draws := rfl

/-! ### State.setSched -/

@[simp] theorem State.setSched_cfg (s : State) (l : List Turn) : (s.setSched l).cfg = s.cfg := rfl
@[simp] theorem State.setSched_rb (s : State) (l : List Turn) : (s.setSched l).rb = s.rb := rfl
@[simp] theorem State.setSched_tx (s : State) (l : List Turn) : (s.setSched l).tx = s.tx := rfl
@[simp] theorem State.setSched_rx (s : State) (l : List Turn) : (s.setSched l).rx = s.rx := rfl
@[simp] theorem State.setSched_led (s : State) (l : List Turn) : (s.setSched l).led = s.led := rfl
@[simp] theorem State.setSched_txOut (s : State) (l : List Turn) : (s.setSched l).txOut = s.txOut := rfl
@[simp] theorem State.setSched_rxIn (s : State) (l : List Turn) : (s.setSched l).rxIn = s.rxIn := rfl
@[simp] theorem State.setSched_ledOut (s : State) (l : List Turn) : (s.setSched l).ledOut = s.ledOut := rfl
@[simp] theorem State.setSched_answers (s : State) (l : List Turn) : (s.setSched l).answers = s.answers := rfl
@[simp] theorem State.setSched_host (s : State) (l : List Turn) : (s.setSched l).host = s.host := rfl
@[simp] theorem State.setSched_program (s : State) (l : List Turn) : (s.setSched l).program = s.program := rfl
@[simp] theorem State.setSched_sched (s : State) (l : List Turn) : (s.setSched l).sched = l := rfl
@[simp] theorem State.setSched_epoch (s : State) (l : List Turn) : (s.setSched l).epoch = s.epoch := rfl
@[simp] theorem State.setSched_draws (s : State) (l : List Turn) : (s.setSched l).draws = s.draws := rfl

/-! ### State.setRxIn -/

@[simp] theorem State.setRxIn_cfg (s : State) (l : List Byte) : (s.setRxIn l).cfg = s.cfg := rfl
@[simp] theorem State.setRxIn_rb (s : State) (l : List Byte) : (s.setRxIn l).rb = s.rb := rfl
@[simp] theorem State.setRxIn_tx (s : State) (l : List Byte) : (s.setRxIn l).tx = s.tx := rfl
@[simp] theorem State.setRxIn_rx (s : State) (l : List Byte) : (s.setRxIn l).rx = s.rx := rfl
@[simp] theorem State.setRxIn_led (s : State) (l : List Byte) : (s.setRxIn l).led = s.led := rfl
@[simp] theorem State.setRxIn_txOut (s : State) (l : List Byte) : (s.setRxIn l).txOut = s.txOut := rfl
@[simp] theorem State.setRxIn_rxIn (s : State) (l : List Byte) : (s.setRxIn l).rxIn = l := rfl
@[simp] theorem State.setRxIn_ledOut (s : State) (l : List Byte) : (s.setRxIn l).ledOut = s.ledOut := rfl
@[simp] theorem State.setRxIn_answers (s : State) (l : List Byte) : (s.setRxIn l).answers = s.answers := rfl
@[simp] theorem State.setRxIn_host (s : State) (l : List Byte) : (s.setRxIn l).host = s.host := rfl
@[simp] theorem State.setRxIn_program (s : State) (l : List Byte) : (s.setRxIn l).program = s.program := rfl
@[simp] theorem State.setRxIn_sched (s : State) (l : List Byte) : (s.setRxIn l).sched = s.sched := rfl
@[simp] theorem State.setRxIn_epoch (s : State) (l : List Byte) : (s.setRxIn l).epoch = s.epoch := rfl
@[simp] theorem State.setRxIn_draws (s : State) (l : List Byte) : (s.setRxIn l).draws = s.draws := rfl

/-! ### State.emitTx -/

@[simp] theorem State.emitTx_cfg (s : State) (v : Byte) : (s.emitTx v).cfg = s.cfg := rfl
@[simp] theorem State.emitTx_rb (s : State) (v : Byte) : (s.emitTx v).rb = s.rb := rfl
@[simp] theorem State.emitTx_tx (s : State) (v : Byte) : (s.emitTx v).tx = s.tx := rfl
@[simp] theorem State.emitTx_rx (s : State) (v : Byte) : (s.emitTx v).rx = s.rx := rfl
@[simp] theorem State.emitTx_led (s : State) (v : Byte) : (s.emitTx v).led = s.led := rfl
@[simp] theorem State.emitTx_txOut (s : State) (v : Byte) : (s.emitTx v).txOut = s.txOut ++ [v] := rfl
@[simp] theorem State.emitTx_rxIn (s : State) (v : Byte) : (s.emitTx v).rxIn = s.rxIn := rfl
@[simp] theorem State.emitTx_ledOut (s : State) (v : Byte) : (s.emitTx v).ledOut = s.ledOut := rfl
@[simp] theorem State.emitTx_answers (s : State) (v : Byte) : (s.emitTx v).answers = s.answers := rfl
@[simp] theorem State.emitTx_host (s : State) (v : Byte) : (s.emitTx v).host = s.host := rfl
@[simp] theorem State.emitTx_program (s : State) (v : Byte) : (s.emitTx v).program = s.program := rfl
@[simp] theorem State.emitTx_sched (s : State) (v : Byte) : (s.emitTx v).sched = s.sched := rfl
@[simp] theorem State.emitTx_epoch (s : State) (v : Byte) : (s.emitTx v).epoch = s.epoch := rfl
@[simp] theorem State.emitTx_draws (s : State) (v : Byte) : (s.emitTx v).draws = s.draws := rfl

/-! ### State.emitLed -/

@[simp] theorem State.emitLed_cfg (s : State) (m : LedMark) : (s.emitLed m).cfg = s.cfg := rfl
@[simp] theorem State.emitLed_rb (s : State) (m : LedMark) : (s.emitLed m).rb = s.rb := rfl
@[simp] theorem State.emitLed_tx (s : State) (m : LedMark) : (s.emitLed m).tx = s.tx := rfl
@[simp] theorem State.emitLed_rx (s : State) (m : LedMark) : (s.emitLed m).rx = s.rx := rfl
@[simp] theorem State.emitLed_led (s : State) (m : LedMark) : (s.emitLed m).led = s.led := rfl
@[simp] theorem State.emitLed_txOut (s : State) (m : LedMark) : (s.emitLed m).txOut = s.txOut := rfl
@[simp] theorem State.emitLed_rxIn (s : State) (m : LedMark) : (s.emitLed m).rxIn = s.rxIn := rfl
@[simp] theorem State.emitLed_ledOut (s : State) (m : LedMark) : (s.emitLed m).ledOut = s.ledOut ++ [m] := rfl
@[simp] theorem State.emitLed_answers (s : State) (m : LedMark) : (s.emitLed m).answers = s.answers := rfl
@[simp] theorem State.emitLed_host (s : State) (m : LedMark) : (s.emitLed m).host = s.host := rfl
@[simp] theorem State.emitLed_program (s : State) (m : LedMark) : (s.emitLed m).program = s.program := rfl
@[simp] theorem State.emitLed_sched (s : State) (m : LedMark) : (s.emitLed m).sched = s.sched := rfl
@[simp] theorem State.emitLed_epoch (s : State) (m : LedMark) : (s.emitLed m).epoch = s.epoch := rfl
@[simp] theorem State.emitLed_draws (s : State) (m : LedMark) : (s.emitLed m).draws = s.draws := rfl

/-! ### State.countDraw -/

@[simp] theorem State.countDraw_cfg (s : State) : (s.countDraw).cfg = s.cfg := rfl
@[simp] theorem State.countDraw_rb (s : State) : (s.countDraw).rb = s.rb := rfl
@[simp] theorem State.countDraw_tx (s : State) : (s.countDraw).tx = s.tx := rfl
@[simp] theorem State.countDraw_rx (s : State) : (s.countDraw).rx = s.rx := rfl
@[simp] theorem State.countDraw_led (s : State) : (s.countDraw).led = s.led := rfl
@[simp] theorem State.countDraw_txOut (s : State) : (s.countDraw).txOut = s.txOut := rfl
@[simp] theorem State.countDraw_rxIn (s : State) : (s.countDraw).rxIn = s.rxIn := rfl
@[simp] theorem State.countDraw_ledOut (s : State) : (s.countDraw).ledOut = s.ledOut := rfl
@[simp] theorem State.countDraw_answers (s : State) : (s.countDraw).answers = s.answers := rfl
@[simp] theorem State.countDraw_host (s : State) : (s.countDraw).host = s.host := rfl
@[simp] theorem State.countDraw_program (s : State) : (s.countDraw).program = s.program := rfl
@[simp] theorem State.countDraw_sched (s : State) : (s.countDraw).sched = s.sched := rfl
@[simp] theorem State.countDraw_epoch (s : State) : (s.countDraw).epoch = s.epoch := rfl
@[simp] theorem State.countDraw_draws (s : State) : (s.countDraw).draws = s.draws + 1 := rfl

/-! ### State.answer -/

@[simp] theorem State.answer_cfg (s : State) (st : Status) (v : BitVec 16) : (s.answer st v).cfg = s.cfg := rfl
@[simp] theorem State.answer_rb (s : State) (st : Status) (v : BitVec 16) : (s.answer st v).rb = s.rb := rfl
@[simp] theorem State.answer_tx (s : State) (st : Status) (v : BitVec 16) : (s.answer st v).tx = s.tx := rfl
@[simp] theorem State.answer_rx (s : State) (st : Status) (v : BitVec 16) : (s.answer st v).rx = s.rx := rfl
@[simp] theorem State.answer_led (s : State) (st : Status) (v : BitVec 16) : (s.answer st v).led = s.led := rfl
@[simp] theorem State.answer_txOut (s : State) (st : Status) (v : BitVec 16) : (s.answer st v).txOut = s.txOut := rfl
@[simp] theorem State.answer_rxIn (s : State) (st : Status) (v : BitVec 16) : (s.answer st v).rxIn = s.rxIn := rfl
@[simp] theorem State.answer_ledOut (s : State) (st : Status) (v : BitVec 16) : (s.answer st v).ledOut = s.ledOut := rfl
@[simp] theorem State.answer_answers (s : State) (st : Status) (v : BitVec 16) : (s.answer st v).answers = s.answers ++ [response st v] := rfl
@[simp] theorem State.answer_host (s : State) (st : Status) (v : BitVec 16) : (s.answer st v).host = s.host := rfl
@[simp] theorem State.answer_program (s : State) (st : Status) (v : BitVec 16) : (s.answer st v).program = s.program := rfl
@[simp] theorem State.answer_sched (s : State) (st : Status) (v : BitVec 16) : (s.answer st v).sched = s.sched := rfl
@[simp] theorem State.answer_epoch (s : State) (st : Status) (v : BitVec 16) : (s.answer st v).epoch = s.epoch := rfl
@[simp] theorem State.answer_draws (s : State) (st : Status) (v : BitVec 16) : (s.answer st v).draws = s.draws := rfl

/-! ### Result -/

@[simp] theorem andThen_next (s : State) (k : State → Result) : andThen (.next s) k = k s := rfl
@[simp] theorem andThen_fault (f : Fault) (k : State → Result) : andThen (.fault f) k = .fault f := rfl
@[simp] theorem andThen_refused (q : Refusal) (k : State → Result) : andThen (.refused q) k = .refused q := rfl
@[simp] theorem answered_eq (st : Status) (v : BitVec 16) (s : State) : answered st v s = .next (s.answer st v) := rfl

/-- What follows a next state came from one: the first part went on, and the second took its state. -/
theorem andThen_eq_next (r : Result) (k : State → Result) (t : State) :
    andThen r k = .next t ↔ ∃ s, r = .next s ∧ k s = .next t := by
  cases r <;> simp

end Sys2Proof.Machine
end

