-- ==== Sys2Proof/Laws/Memory.lean ====
section
/-! SUPPORT. The laws of byte memories: read after write, the canonical form is kept, and what the byte accesses of Ops can do. -/

namespace Sys2Proof.Machine

/-! ### One memory -/

@[simp] theorem Memory.read?_nil (i : Nat) : Memory.read? [] i = none := rfl

theorem Memory.read?_cons (a : Nat) (v : Byte) (m : Memory) (i : Nat) :
    Memory.read? ((a, v) :: m) i = if a = i then some v else Memory.read? m i := rfl

/-- A read gives the byte just written at the same index, and what it gave before at every other. -/
@[simp] theorem Memory.read?_write (m : Memory) (i : Nat) (v : Byte) (j : Nat) :
    Memory.read? (Memory.write m i v) j = if i = j then some v else Memory.read? m j := by
  induction m with
  | nil => rfl
  | cons c m ih =>
    obtain ⟨a, w⟩ := c
    unfold Memory.write
    by_cases h1 : i < a
    · simp [h1, Memory.read?_cons]
    · by_cases h2 : i = a
      · subst h2
        by_cases h3 : i = j <;> simp [Memory.read?_cons, h3]
      · simp only [h1, h2, if_false, Memory.read?_cons, ih]
        by_cases h3 : a = j
        · have : i ≠ j := by omega
          simp [h3, this]
        · simp [h3]

/-- The indices listed after a write are the old ones and the written one. -/
theorem Memory.mem_write (m : Memory) (i : Nat) (v : Byte) (c : Host.Cell) (h : c ∈ Memory.write m i v) :
    c = (i, v) ∨ c ∈ m := by
  induction m with
  | nil => simpa [Memory.write] using h
  | cons d m ih =>
    obtain ⟨a, w⟩ := d
    unfold Memory.write at h
    split at h
    · simpa using h
    · split at h
      · rcases List.mem_cons.1 h with h | h
        · exact .inl h
        · exact .inr (List.mem_cons_of_mem _ h)
      · rcases List.mem_cons.1 h with h | h
        · exact .inr (by simp [h])
        · exact (ih h).imp id (List.mem_cons_of_mem _)

/-- A write inside the buffer keeps the canonical form. -/
theorem Memory.write_wf {size : Nat} {m : Memory} {i : Nat} (v : Byte) (h : Memory.wf size m) (hi : i < size) :
    Memory.wf size (Memory.write m i v) := by
  refine ⟨?_, fun c hc => ?_⟩
  · have hp := h.1
    clear h
    induction m with
    | nil => simp [Memory.write]
    | cons d m ih =>
      obtain ⟨a, w⟩ := d
      have hd := List.pairwise_cons.1 hp
      unfold Memory.write
      split
      · rename_i h1
        refine List.pairwise_cons.2 ⟨fun c hc => ?_, hp⟩
        rcases List.mem_cons.1 hc with rfl | hc
        · exact h1
        · exact Nat.lt_trans h1 (hd.1 c hc)
      · split
        · rename_i _ h2
          subst h2
          exact List.pairwise_cons.2 ⟨fun c hc => hd.1 c hc, hd.2⟩
        · rename_i h1 h2
          refine List.pairwise_cons.2 ⟨fun c hc => ?_, ih hd.2⟩
          rcases Memory.mem_write m i v c hc with rfl | hc
          · show a < i
            omega
          · exact hd.1 c hc
  · rcases Memory.mem_write m i v c hc with rfl | hc
    · exact hi
    · exact h.2 c hc

theorem Memory.nil_wf (size : Nat) : Memory.wf size [] := by simp [Memory.wf]

/-- A run of writes inside the buffer keeps the canonical form. -/
theorem Memory.writeRun_wf {size : Nat} (vs : List Byte) : ∀ {m : Memory} {base : Nat}, Memory.wf size m →
    base + vs.length ≤ size → Memory.wf size (Memory.writeRun m base vs) := by
  induction vs with
  | nil => intro m base h _; exact h
  | cons v vs ih =>
    intro m base h hb
    simp only [List.length_cons] at hb
    exact ih (Memory.write_wf v h (by omega)) (by omega)

/-- After a run of writes an index inside the run reads as its byte of the run, every other as before. -/
theorem Memory.read?_writeRun (vs : List Byte) : ∀ (m : Memory) (base j : Nat),
    Memory.read? (Memory.writeRun m base vs) j =
      if base ≤ j ∧ j < base + vs.length then vs[j - base]? else Memory.read? m j := by
  induction vs with
  | nil =>
    intro m base j
    have : ¬ (base ≤ j ∧ j < base) := by omega
    simp [Memory.writeRun, this]
  | cons v vs ih =>
    intro m base j
    simp only [Memory.writeRun, ih, Memory.read?_write, List.length_cons]
    by_cases h : base = j
    · subst h
      simp
    · by_cases h2 : base + 1 ≤ j ∧ j < base + 1 + vs.length
      · have h3 : base ≤ j ∧ j < base + (vs.length + 1) := by omega
        have h4 : j - base = (j - (base + 1)) + 1 := by omega
        simp [h2, h3, h4]
      · have h3 : ¬ (base ≤ j ∧ j < base + (vs.length + 1)) := by omega
        rw [if_neg h2, if_neg h, if_neg h3]

/-! ### The four memories -/

@[simp] theorem State.setMem_mem (s : State) (u : MemId) (m : Memory) (v : MemId) :
    (s.setMem u m).mem v = if v = u then m else s.mem v := by
  cases u <;> cases v <;> simp [State.mem, State.setMem]

@[simp] theorem State.setMem_cfg (s : State) (u : MemId) (m : Memory) : (s.setMem u m).cfg = s.cfg := by cases u <;> rfl
@[simp] theorem State.setMem_txOut (s : State) (u : MemId) (m : Memory) : (s.setMem u m).txOut = s.txOut := by cases u <;> rfl
@[simp] theorem State.setMem_rxIn (s : State) (u : MemId) (m : Memory) : (s.setMem u m).rxIn = s.rxIn := by cases u <;> rfl
@[simp] theorem State.setMem_ledOut (s : State) (u : MemId) (m : Memory) : (s.setMem u m).ledOut = s.ledOut := by cases u <;> rfl
@[simp] theorem State.setMem_answers (s : State) (u : MemId) (m : Memory) : (s.setMem u m).answers = s.answers := by cases u <;> rfl
@[simp] theorem State.setMem_host (s : State) (u : MemId) (m : Memory) : (s.setMem u m).host = s.host := by cases u <;> rfl
@[simp] theorem State.setMem_program (s : State) (u : MemId) (m : Memory) : (s.setMem u m).program = s.program := by cases u <;> rfl
@[simp] theorem State.setMem_sched (s : State) (u : MemId) (m : Memory) : (s.setMem u m).sched = s.sched := by cases u <;> rfl
@[simp] theorem State.setMem_epoch (s : State) (u : MemId) (m : Memory) : (s.setMem u m).epoch = s.epoch := by cases u <;> rfl
@[simp] theorem State.setMem_draws (s : State) (u : MemId) (m : Memory) : (s.setMem u m).draws = s.draws := by cases u <;> rfl

/-- The byte at an index depends on the unit's memory and on the reset's draw alone. -/
theorem byteAt_congr {s t : State} {u : MemId} (hm : t.mem u = s.mem u) (he : t.epoch = s.epoch) (i : Nat) :
    byteAt t u i = byteAt s u i := by
  simp [byteAt, hm, he]

/-- After a store the stored index reads as the byte, every other index of every memory as before. -/
theorem byteAt_store (s : State) (u : MemId) (i : Nat) (v : Byte) (w : MemId) (j : Nat) :
    byteAt (s.setMem u ((s.mem u).write i v)) w j = if w = u ∧ j = i then v else byteAt s w j := by
  by_cases hw : w = u
  · subst hw
    by_cases hj : j = i
    · simp [byteAt, hj]
    · have : ¬ i = j := fun h => hj h.symm
      simp [byteAt, hj, this]
  · simp [byteAt, hw]

/-- All a store can do: inside the buffer it writes the one byte, outside it faults. -/
theorem storeByte_eq (u : MemId) (i : Nat) (v : Byte) (s : State) :
    storeByte u i v s =
      if i < memSize s.cfg u then .next (s.setMem u ((s.mem u).write i v)) else .fault .noSuchByte := rfl

theorem storeByte_next {u : MemId} {i : Nat} {v : Byte} {s t : State} (h : storeByte u i v s = .next t) :
    i < memSize s.cfg u ∧ t = s.setMem u ((s.mem u).write i v) := by
  unfold storeByte at h
  split at h
  · exact ⟨‹_›, by simpa using h.symm⟩
  · cases h

theorem storeByte_inside {u : MemId} {i : Nat} (v : Byte) {s : State} (h : i < memSize s.cfg u) :
    storeByte u i v s = .next (s.setMem u ((s.mem u).write i v)) := by
  simp [storeByte, h]

/-- All a load can do: inside the buffer it hands the byte on, outside it faults. -/
theorem withByte_inside {u : MemId} {i : Nat} {s : State} (k : Byte → Result) (h : i < memSize s.cfg u) :
    withByte u i s k = k (byteAt s u i) := by
  simp [withByte, h]

theorem withByte_next {u : MemId} {i : Nat} {s t : State} {k : Byte → Result} (h : withByte u i s k = .next t) :
    i < memSize s.cfg u ∧ k (byteAt s u i) = .next t := by
  unfold withByte at h
  split at h
  · exact ⟨‹_›, h⟩
  · cases h

/-- After codes are stored into the encode buffer, an index inside the run reads as its code, every other byte of every memory as
before. -/
theorem byteAt_ledStoreRun (s : State) (base : Nat) (codes : List Byte) (w : MemId) (j : Nat) :
    byteAt (s.setLed { s.led with enc := s.led.enc.writeRun base codes }) w j =
      if w = .led ∧ base ≤ j ∧ j < base + codes.length then codes.getD (j - base) 0#8 else byteAt s w j := by
  cases w
  case led =>
    by_cases h : base ≤ j ∧ j < base + codes.length
    · have hlt : j - base < codes.length := by omega
      simp [byteAt, State.mem, Memory.read?_writeRun, h, hlt]
    · simp [byteAt, State.mem, Memory.read?_writeRun, h]
  all_goals simp [byteAt, State.mem]

end Sys2Proof.Machine
end

