-- ==== Sys2Proof/Laws/Frames.lean ====
section
/-! SUPPORT. What the updates of State leave of the memories, and what each operation ends in: one lemma for each of its outcomes. -/

namespace Sys2Proof.Machine

/-! ### The bytes under the updates that write no memory -/

@[simp] theorem byteAt_answer (s : State) (st : Status) (v : BitVec 16) (u : MemId) (i : Nat) :
    byteAt (s.answer st v) u i = byteAt s u i := by cases u <;> rfl
@[simp] theorem byteAt_setHost (s : State) (p : HostPos) (u : MemId) (i : Nat) :
    byteAt (s.setHost p) u i = byteAt s u i := by cases u <;> rfl
@[simp] theorem byteAt_setProgram (s : State) (p : List Cmd) (u : MemId) (i : Nat) :
    byteAt (s.setProgram p) u i = byteAt s u i := by cases u <;> rfl
@[simp] theorem byteAt_setSched (s : State) (l : List Turn) (u : MemId) (i : Nat) :
    byteAt (s.setSched l) u i = byteAt s u i := by cases u <;> rfl
@[simp] theorem byteAt_setRxIn (s : State) (l : List Byte) (u : MemId) (i : Nat) :
    byteAt (s.setRxIn l) u i = byteAt s u i := by cases u <;> rfl
@[simp] theorem byteAt_emitTx (s : State) (v : Byte) (u : MemId) (i : Nat) :
    byteAt (s.emitTx v) u i = byteAt s u i := by cases u <;> rfl
@[simp] theorem byteAt_emitLed (s : State) (m : LedMark) (u : MemId) (i : Nat) :
    byteAt (s.emitLed m) u i = byteAt s u i := by cases u <;> rfl
@[simp] theorem byteAt_countDraw (s : State) (u : MemId) (i : Nat) : byteAt s.countDraw u i = byteAt s u i := by cases u <;> rfl

/-- Writing registers of `RB` leaves every byte. -/
theorem byteAt_setRb {s : State} {x : Rb} (h : x.mem = s.rb.mem) (u : MemId) (i : Nat) : byteAt (s.setRb x) u i = byteAt s u i := by
  cases u <;> simp [byteAt, State.mem, h]
/-- Writing registers of `TX` leaves every byte. -/
theorem byteAt_setTx {s : State} {x : Tx} (h : x.mem = s.tx.mem) (u : MemId) (i : Nat) : byteAt (s.setTx x) u i = byteAt s u i := by
  cases u <;> simp [byteAt, State.mem, h]
/-- Writing registers of `RX` leaves every byte. -/
theorem byteAt_setRx {s : State} {x : Rx} (h : x.mem = s.rx.mem) (u : MemId) (i : Nat) : byteAt (s.setRx x) u i = byteAt s u i := by
  cases u <;> simp [byteAt, State.mem, h]
/-- Writing registers of `LED` leaves every byte. -/
theorem byteAt_setLed {s : State} {x : Led} (h : x.enc = s.led.enc) (u : MemId) (i : Nat) : byteAt (s.setLed x) u i = byteAt s u i := by
  cases u <;> simp [byteAt, State.mem, h]

/-! ### Unit RB -/

theorem execRbPush_full {s : State} (b : Byte) (h : inc s.cfg.nRb s.rb.head.toNat = s.rb.tail.toNat) :
    execRbPush b s = .next (s.answer .outOfMemory 0#16) := by
  simp [execRbPush, rbPushSlot, (isFull_iff _ _ _).2 h]

theorem execRbPush_free {s : State} (b : Byte) (hf : inc s.cfg.nRb s.rb.head.toNat ≠ s.rb.tail.toNat)
    (hh : s.rb.head.toNat < s.cfg.nRb) :
    execRbPush b s = .next ((s.setRb { s.rb with
      mem := s.rb.mem.write s.rb.head.toNat b, head := incCursor s.cfg.nRb s.rb.head }).answer .ok 0#16) := by
  simp only [execRbPush, rbPushSlot, (isFull_eq_false _ _ _).2 hf, rbPushStore, Bool.false_eq_true, if_false]
  rw [storeByte_inside (u := .rb) b hh]
  rfl

theorem execRbPop_empty {s : State} (h : s.rb.head = s.rb.tail) : execRbPop s = .fault .popEmpty := by
  simp [execRbPop, rbPopSlot, (isEmpty_iff _ _).2 h]

theorem execRbPop_some {s : State} (h : s.rb.head ≠ s.rb.tail) (ht : s.rb.tail.toNat < s.cfg.nRb) :
    execRbPop s = .next ((s.setRb { s.rb with tail := incCursor s.cfg.nRb s.rb.tail }).answer .ok
      (byteValue (byteAt s .rb s.rb.tail.toNat))) := by
  simp only [execRbPop, rbPopSlot, (isEmpty_eq_false _ _).2 h, rbPopLoad, Bool.false_eq_true, if_false]
  rw [withByte_inside (u := .rb) _ ht]
  rfl

/-! ### Unit TX -/

theorem execTxEnq_full {s : State} (b : Byte) (h : inc s.cfg.nTx s.tx.head.toNat = s.tx.tail.toNat) :
    execTxEnq b s = .next (s.answer .outOfMemory 0#16) := by
  simp [execTxEnq, txEnqSlot, (isFull_iff _ _ _).2 h]

theorem execTxEnq_free {s : State} (b : Byte) (hf : inc s.cfg.nTx s.tx.head.toNat ≠ s.tx.tail.toNat)
    (hh : s.tx.head.toNat < s.cfg.nTx) :
    execTxEnq b s = .next ((s.setTx { s.tx with
      mem := s.tx.mem.write s.tx.head.toNat b, head := incCursor s.cfg.nTx s.tx.head }).answer .ok 0#16) := by
  simp only [execTxEnq, txEnqSlot, (isFull_eq_false _ _ _).2 hf, txEnqStore, Bool.false_eq_true, if_false]
  rw [storeByte_inside (u := .tx) b hh]
  rfl

/-- `TX` after a run of `r` bytes from `TX.tail` has been armed, committed and started. -/
def txArmed (n : Nat) (r : Cursor) (u : Tx) : Tx :=
  { u with src := u.tail, cnt := r, tail := BitVec.ofNat 16 ((u.tail.toNat + r.toNat) % n), active := true }

/-- All the body of `TX.START` can do: `Busy` and `Empty` leave the state, else the run from `TX.tail` is armed. -/
theorem txStartBody_eq (s : State) :
    txStartBody s =
      if s.tx.active then (.busy, s)
      else if cursorDist s.cfg.nTx s.tx.head.toNat s.tx.tail.toNat = 0 then (.empty, s)
      else (.ok, s.setTx (txArmed s.cfg.nTx (BitVec.ofNat 16 (run s.cfg.nTx s.tx.head.toNat s.tx.tail.toNat)) s.tx)) := by
  unfold txStartBody txStartRun
  split
  · rfl
  · split <;> rename_i h
    · split at h
      · simp [*]
      · cases h
    · split at h
      · cases h
      · cases h; simp [*]; rfl

/-- The count of a cursor pair is 0 exactly when the registers are equal. -/
theorem cursorDist_eq_zero {n : Nat} {h t : Cursor} (ht : t.toNat < n) :
    cursorDist n h.toNat t.toNat = 0 ↔ h = t := by
  rw [← BitVec.toNat_inj]
  unfold cursorDist
  split <;> omega

/-! ### The bytes to be sent, by the position of `HOST` -/

theorem txUnsent_committed {s : State} (h : runStillResident s.host = false) : txUnsent s = txInFlight s ++ txResident s := by
  simp [txUnsent, h]

theorem txUnsent_armed {s : State} (h : runStillResident s.host = true) : txUnsent s = txResident s := by
  simp [txUnsent, h]

/-- Outside s3 to s5 of `TX.START` no run is armed and not committed. -/
theorem runStillResident_of_outside {p : HostPos} (h : outsideTxStart p = true) : runStillResident p = false := by
  cases p <;> first | rfl | cases h

@[simp] theorem acceptedByTurn_host (s : State) : acceptedByTurn .host s = acceptedByMicroStep s := rfl
@[simp] theorem acceptedByTurn_hostOp (s : State) : acceptedByTurn .hostOp s = acceptedByOperation s := rfl

/-- Only the two turns of `HOST` add a byte or store one. -/
theorem acceptedByTurn_other {turn : Turn} (s : State) (h : turn ≠ .host) (h' : turn ≠ .hostOp) :
    acceptedByTurn turn s = [] ∧ enqueueStores turn s = false := by
  cases turn <;> first | exact ⟨rfl, rfl⟩ | contradiction

theorem acceptedByMicroStep_advance {s : State} {h : Cursor} (hp : s.host = .txEnqS3 h) :
    acceptedByMicroStep s = [byteAt s .tx h.toNat] := by simp [acceptedByMicroStep, hp]

/-! ### Unit RX -/

theorem execRxStart_stopped {s : State} (h : s.rx.run = false) :
    execRxStart s = .next ((s.setRx { s.rx with
      rem := BitVec.ofNat 16 s.cfg.nRx, tail := 0#16, run := true }).answer .ok 0#16) := by
  simp only [execRxStart, h]; rfl

theorem execRxStart_running {s : State} (h : s.rx.run = true) : execRxStart s = .refused .rxStartWhileRunning := by
  simp [execRxStart, h]

theorem execRxRead_eq {s : State} (ht : s.rx.tail.toNat < s.cfg.nRx) :
    execRxRead s = .next ((s.setRx { s.rx with tail := incCursor s.cfg.nRx s.rx.tail }).answer .ok
      (byteValue (byteAt s .rx s.rx.tail.toNat))) := by
  simp only [execRxRead, rxReadLoad]
  rw [withByte_inside (u := .rx) _ ht]
  rfl

/-! ### Unit LED -/

theorem execLedUpdate_eq (s : State) :
    execLedUpdate s =
      if ledUpdateStarts s then
        .next (((s.setLed { s.led with inflight := true, pos := 0#21, cnt := BitVec.ofNat 21 s.cfg.frameBytes,
                                       genEn := true, xferEn := true }).emitLed .frame).answer .ok 0#16)
      else .next (s.answer .ok 0#16) := rfl

/-! ### The engines -/

theorem xtxStep_enabled {s : State} (ha : s.tx.active = true) (hc : 0 < s.tx.cnt.toNat) (hs : s.tx.src.toNat < s.cfg.nTx) :
    xtxStep s = .next ((s.emitTx (byteAt s .tx s.tx.src.toNat)).setTx (txDescriptorStep s.tx)) := by
  simp only [xtxStep, xtxEnabled, ha, hc, decide_true, Bool.and_self, if_true]
  rw [withByte_inside (u := .tx) _ hs]

theorem xtxStep_disabled {s : State} (h : s.tx.active = false ∨ s.tx.cnt = 0#16) : xtxStep s = .next s := by
  rcases h with h | h <;> simp [xtxStep, xtxEnabled, h]

theorem xrxStep_enabled {s : State} {b : Byte} {bs : List Byte} (hr : s.rx.run = true) (hi : s.rxIn = b :: bs)
    (hx : rxWriteIndex s.cfg.nRx s.rx.rem < s.cfg.nRx) :
    xrxStep s = .next ((s.setRxIn bs).setRx { s.rx with
      mem := s.rx.mem.write (rxWriteIndex s.cfg.nRx s.rx.rem) b, rem := rxCountStep s.cfg.nRx s.rx.rem }) := by
  have hstore := storeByte_inside (u := .rx) (s := s.setRxIn bs) b hx
  unfold xrxStep
  rw [hr, hi]
  simp only
  rw [hstore]
  rfl

theorem xrxStep_disabled {s : State} (h : s.rx.run = false ∨ s.rxIn = []) : xrxStep s = .next s := by
  unfold xrxStep
  rcases h with h | h
  · rw [h]
  · rw [h]; cases s.rx.run <;> rfl

theorem xledStep_enabled {s : State} (hx : s.led.xferEn = true) (hg : s.led.genEn = true) (hc : 0 < s.led.cnt.toNat)
    (hp : s.led.pos.toNat < s.cfg.frameBytes) :
    xledStep s = .next (((s.emitLed (.pulse (byteAt s .led s.led.pos.toNat))).setLed
      (ledDescriptorStep (Config.freePhase s.draws) s.led)).countDraw) := by
  simp only [xledStep, xledEnabled, hx, hg, hc, decide_true, Bool.and_self, if_true]
  rw [withByte_inside (u := .led) _ hp]

theorem xledStep_disabled {s : State} (h : s.led.xferEn = false ∨ s.led.genEn = false ∨ s.led.cnt = 0#21) :
    xledStep s = .next s := by
  rcases h with h | h | h <;> simp [xledStep, xledEnabled, h]

end Sys2Proof.Machine
end

