-- ==== Sys2Proof/Laws/PerInstr.lean ====
section
/-! SUPPORT. One lemma for each operation: its command word selects its own row of the opcode table by match and mask (R96). -/

namespace Sys2Proof.Laws.EncodesItsRow

/-- The encoded word selects the operation's row, and the row's pattern starts with the operation's opcode byte. -/
def Statement (i : Instr) : Prop :=
  encode i &&& i.row.mask = i.row.pattern ∧ opcodeByte i.row.pattern = i.opcode

/-- The words of the two rows with a byte operand. -/
theorem byte_row (op : BitVec 8) (b : Byte) :
    (op ++ 0#16 ++ b.setWidth 24 : Cmd) &&& 0xFFFFFFFFFF00#48 = op ++ 0#16 ++ 0#24 := by
  ext i hi
  simp only [BitVec.getElem_and, BitVec.getElem_append, BitVec.getElem_setWidth]
  interval_cases i <;> simp

theorem rbPush (b : Byte) : Statement (.rbPush b) := ⟨(byte_row 0x00#8 b).trans rfl, by simp only [Instr.row, Instr.opcode]; decide⟩
theorem rbPop : Statement .rbPop := ⟨by decide, by decide⟩
theorem rbAvail : Statement .rbAvail := ⟨by decide, by decide⟩
theorem rbIsEmpty : Statement .rbIsEmpty := ⟨by decide, by decide⟩
theorem rbIsFull : Statement .rbIsFull := ⟨by decide, by decide⟩
theorem txEnq (b : Byte) : Statement (.txEnq b) := ⟨(byte_row 0x10#8 b).trans rfl, by simp only [Instr.row, Instr.opcode]; decide⟩
theorem txStart : Statement .txStart := ⟨by decide, by decide⟩
theorem txEvt : Statement .txEvt := ⟨by decide, by decide⟩
theorem rxStart : Statement .rxStart := ⟨by decide, by decide⟩
theorem rxStop : Statement .rxStop := ⟨by decide, by decide⟩
theorem rxAvail : Statement .rxAvail := ⟨by decide, by decide⟩
theorem rxRead : Statement .rxRead := ⟨by decide, by decide⟩
theorem ledClear : Statement .ledClear := ⟨by decide, by decide⟩
theorem ledWrite (idx : BitVec 16) (c : Colour) : Statement (.ledWrite idx c) := by
  refine ⟨?_, by simp only [Instr.row, Instr.opcode]; decide⟩
  show ((0x31#8 ++ idx ++ c : Cmd) &&& 0xFF0000000000#48) = 0x310000000000#48
  ext i hi
  simp only [BitVec.getElem_and, BitVec.getElem_append]
  interval_cases i <;> simp
theorem ledUpdate : Statement .ledUpdate := ⟨by decide, by decide⟩
theorem ledEvt : Statement .ledEvt := ⟨by decide, by decide⟩

end Sys2Proof.Laws.EncodesItsRow
end

