-- ==== Sys2Proof/Laws/Turns.lean ====
section
/-! SUPPORT. What a step is for each turn, what the entry words run, and that the canonical form of every memory is kept. -/

namespace Sys2Proof.Machine

/-! ### A step is the turn at the head of the schedule -/

theorem step_empty {s : State} (h : s.sched = []) : step s = .next s := by simp [step, nextTurn, h]

theorem step_turn {s : State} {turn : Turn} {rest : List Turn} (h : s.sched = turn :: rest) :
    step s = takeTurn turn (s.setSched rest) := by simp [step, nextTurn, h]

/-- `HOST`, idle with a word to present, begins with its first micro-step. -/
theorem hostTurn_idle {s : State} {w : Cmd} {ws : List Cmd} (h : s.host = .idle) (hp : s.program = w :: ws) :
    hostTurn s = presentFirst w (s.setProgram ws) := by simp [hostTurn, h, hp]

/-- `HOST`, inside an operation, takes the micro-step it stands before. -/
theorem hostTurn_inside {s : State} (h : s.host ≠ .idle) : hostTurn s = hostMicro s.host s := by
  unfold hostTurn
  split
  · exact absurd ‹_› h
  · rfl

/-- `HOST` passes its turn for a whole operation while it is inside one. -/
theorem hostOpTurn_inside {s : State} (h : s.host ≠ .idle) : hostOpTurn s = .next s := by
  unfold hostOpTurn
  split
  · exact absurd ‹_› h
  · rfl

theorem present_txEvt (s : State) : present (eventWord .tx) s = execTxEvt s := rfl

theorem present_ledEvt (s : State) : present (eventWord .led) s = execLedEvt s := rfl

/-! ### All the two handlers can do -/

theorem execTxEvt_eq (s : State) :
    execTxEvt s =
      if s.tx.tc then
        if cursorDist s.cfg.nTx s.tx.head.toNat s.tx.tail.toNat = 0 then .next ((txAcknowledge s).answer .ok 0#16)
        else .next (((txAcknowledge s).setTx (txArmed s.cfg.nTx
          (BitVec.ofNat 16 (run s.cfg.nTx s.tx.head.toNat s.tx.tail.toNat)) (txAcknowledge s).tx)).answer .ok 0#16)
      else .next (s.answer .fail 0#16) := by
  unfold execTxEvt
  rw [txStartBody_eq]
  split <;> [skip; rfl]
  simp only [txAcknowledge, State.setTx_tx, State.setTx_cfg, Bool.false_eq_true, if_false]
  split <;> simp [*]

theorem execLedEvt_eq (s : State) :
    execLedEvt s =
      if s.led.tc then .next ((ledAcknowledge s).answer .ok 0#16) else .next (s.answer .fail 0#16) := rfl

/-! ### The canonical form of the memories -/

/-- A byte access that goes on keeps every memory canonical. -/
theorem storeByte_keeps_wf {u : MemId} {i : Nat} {v : Byte} {s t : State} (h : storeByte u i v s = .next t)
    (hs : ∀ w, Memory.wf (memSize s.cfg w) (s.mem w)) (w : MemId) : Memory.wf (memSize t.cfg w) (t.mem w) := by
  obtain ⟨hi, rfl⟩ := storeByte_next h
  rw [State.setMem_cfg, State.setMem_mem]
  split
  · subst w; exact Memory.write_wf v (hs u) hi
  · exact hs w

/-- A run of codes inside the encode buffer keeps it canonical. -/
theorem ledStoreRun_keeps_wf {base : Nat} {codes : List Byte} {s : State} (h : Memory.wf s.cfg.frameBytes s.led.enc)
    (hb : base + codes.length ≤ s.cfg.frameBytes) : Memory.wf s.cfg.frameBytes (ledStoreRun base codes s).led.enc :=
  Memory.writeRun_wf codes h hb

/-- After reset, of whatever parameters, every memory is canonical: nothing is listed. -/
theorem resetWith_wf (cfg : Config) (u : MemId) : Memory.wf (memSize cfg u) ((State.resetWith cfg).mem u) := by
  cases u <;> exact Memory.nil_wf _

theorem reset_wf (u : MemId) : Memory.wf (memSize State.reset.cfg u) (State.reset.mem u) := resetWith_wf _ u

end Sys2Proof.Machine
end

