-- ==== Sys2Proof/Tests/Slice0.lean ====
section
/-! SUPPORT. Tests on vectors of the spec (S<n>, P<n> and the numbered sections are those of 95_test_vectors.md), the smoke test of the
well-formedness check, and for each statement with hypotheses states and operands that meet them. -/

open Sys2Proof Sys2Proof.Machine

namespace Sys2Proof.Tests

/-! ### Small states -/

/-- Small parameters: the capacities of the spec's examples, two LEDs. -/
def cfg : Config :=
  { nRb := 4, nTx := 8, nRx := 4, stripLength := 2, code0 := 0x14#8, code1 := 0x2D#8, phaseIdle := ⟨7⟩,
    period := 90, fClk := 72000000, destTx := 0, srcRx := 0 }

/-- Reset with the small parameters. -/
def base : State := State.resetWith cfg

/-- `RB` with given cursors. -/
def rbAt (h t : Nat) (m : Memory) : State :=
  base.setRb { mem := m, head := BitVec.ofNat 16 h, tail := BitVec.ofNat 16 t }

/-- `TX` as 95_test_vectors.md section 2.4 writes a state: head, tail, active, tc, src, cnt. -/
def txAt (h t : Nat) (active tc : Bool) (src cnt : Nat) (m : Memory) : State :=
  base.setTx { mem := m, head := BitVec.ofNat 16 h, tail := BitVec.ofNat 16 t, active := active, tc := tc,
               src := BitVec.ofNat 16 src, cnt := BitVec.ofNat 16 cnt }

/-- `RX` as section 2.5 writes a state: rem, tail, run. -/
def rxAt (rem t : Nat) (run : Bool) (m : Memory) : State :=
  base.setRx { mem := m, tail := BitVec.ofNat 16 t, run := run, rem := BitVec.ofNat 16 rem }

/-- `LED` as section 2.6 writes a state: inflight, xfer_en, gen_en, tc, pos, cnt. -/
def ledAt (inflight xfer gen tc : Bool) (pos cnt : Nat) (m : Memory) : State :=
  base.setLed { enc := m, inflight := inflight, tc := tc, xferEn := xfer, genEn := gen, phase := ⟨0⟩,
                pos := BitVec.ofNat 21 pos, cnt := BitVec.ofNat 21 cnt }

/-- The state an answer goes on in. -/
def after (r : Result) : State :=
  match r with
  | .next s => s
  | .fault _ => State.reset
  | .refused _ => State.reset

/-- Whether an answer goes on. -/
def goesOn (r : Result) : Bool :=
  match r with
  | .next _ => true
  | .fault _ => false
  | .refused _ => false

/-- The fields section 2.4 shows. -/
def txView (s : State) : Nat × Nat × Bool × Bool × Nat × Nat :=
  (s.tx.head.toNat, s.tx.tail.toNat, s.tx.active, s.tx.tc, s.tx.src.toNat, s.tx.cnt.toNat)

/-- The fields section 2.6 shows. -/
def ledView (s : State) : Bool × Bool × Bool × Bool × Nat × Nat :=
  (s.led.inflight, s.led.xferEn, s.led.genEn, s.led.tc, s.led.pos.toNat, s.led.cnt.toNat)

/-! ### Decoding: words written out from section 2.2 -/

theorem test_decode_RB : [0x000000000041#48, 0x0000000000FF#48, 0x010000000000#48, 0x020000000000#48, 0x030000000000#48,
      0x040000000000#48].map (decode cfg) =
    [.instr (.rbPush 0x41#8), .instr (.rbPush 0xFF#8), .instr .rbPop, .instr .rbAvail, .instr .rbIsEmpty, .instr .rbIsFull] := by
  decide

theorem test_decode_TX : [0x10000000007E#48, 0x110000000000#48, 0x120000000000#48].map (decode cfg) =
    [.instr (.txEnq 0x7E#8), .instr .txStart, .instr .txEvt] := by decide

theorem test_decode_RX : [0x200000000000#48, 0x210000000000#48, 0x220000000000#48, 0x230000000000#48].map (decode cfg) =
    [.instr .rxStart, .instr .rxStop, .instr .rxAvail, .instr .rxRead] := by decide

theorem test_decode_LED : [0x300000000000#48, 0x310001FF0000#48, 0x310000FFFFFF#48, 0x320000000000#48, 0x330000000000#48].map
      (decode cfg) =
    [.instr .ledClear, .instr (.ledWrite 1#16 0xFF0000#24), .instr (.ledWrite 0#16 0xFFFFFF#24), .instr .ledUpdate,
     .instr .ledEvt] := by decide

theorem test_decode_no_such_operation : [0x050000000000#48, 0x0F0000000000#48, 0x130000000000#48, 0x240000000000#48,
      0x340000000000#48, 0x400000000000#48, 0xFFFFFFFFFFFF#48].map (decode cfg) =
    List.replicate 7 (.illegal .noSuchOperation) := by decide

theorem test_decode_operand_fields : [0x010000000001#48, 0x120000000001#48, 0x320000010000#48, 0x330001000000#48,
      0x000000000141#48, 0x100001000041#48].map (decode cfg) = List.replicate 6 (.illegal .operandFieldNotZero) := by decide

theorem test_decode_index : decode cfg 0x310002000000#48 = .illegal .ledIndexOutOfRange := by decide

/-- The same words as the host asks for them. -/
theorem test_decodeTableWord : decodeTableWord 48 0x31FFFF123456 = some (.ledWrite 0xFFFF#16 0x123456#24) ∧
    decodeTableWord 48 0x330000000000 = some .ledEvt ∧ decodeTableWord 48 0x330000000001 = none := by decide

/-- The one check of WellFormed, with an ill-formed term it refuses: the index is the strip length. -/
theorem test_wellFormed_ledWrite : (Instr.ledWrite 1#16 0#24).wellFormed cfg = true ∧
    (Instr.ledWrite 2#16 0#24).wellFormed cfg = false := by decide

/-! ### Section 2.1: cursors -/

theorem test_cursors : [(8, 5, 6), (8, 7, 0), (6, 1, 4), (5, 2, 3), (2, 0, 1), (65535, 0, 65534), (65535, 65534, 0)].map
      (fun p => (inc p.1 p.2.1, cursorDist p.1 p.2.1 p.2.2, run p.1 p.2.1 p.2.2)) =
    [(6, 7, 2), (0, 7, 7), (2, 3, 2), (3, 4, 2), (1, 1, 1), (1, 1, 1), (0, 65534, 65534)] := by decide

/-! ### Section 2.3: unit RB -/

theorem test_rbPush_wraps : let t := after (exec (.rbPush 0x41#8) (rbAt 3 1 [(1, 0x10#8), (2, 0x20#8)]))
    t.answers = [0x00000#20] ∧ t.rb = ⟨[(1, 0x10#8), (2, 0x20#8), (3, 0x41#8)], 0#16, 1#16⟩ := by decide
theorem test_rbPush_full : let s := rbAt 0 1 [(1, 0x10#8)]
    let t := after (exec (.rbPush 0x42#8) s)
    t.answers = [0x30000#20] ∧ t.rb = s.rb := by decide
theorem test_rbPop_wraps : let t := after (exec .rbPop (rbAt 0 3 [(3, 0x41#8)]))
    t.answers = [0x00041#20] ∧ t.rb = ⟨[(3, 0x41#8)], 0#16, 0#16⟩ := by decide
theorem test_rbPop_empty : goesOn (exec .rbPop (rbAt 2 2 [])) = false := by decide
theorem test_rbAvail : (after (exec .rbAvail (rbAt 0 1 []))).answers = [0x00003#20] := by decide
theorem test_rbIsEmpty : (after (exec .rbIsEmpty (rbAt 2 2 []))).answers = [0x00001#20] ∧
    (after (exec .rbIsEmpty (rbAt 0 1 []))).answers = [0x00000#20] := by decide
theorem test_rbIsFull : (after (exec .rbIsFull (rbAt 3 0 []))).answers = [0x00001#20] ∧
    (after (exec .rbIsFull (rbAt 2 0 []))).answers = [0x00000#20] := by decide

/-! ### Section 2.4: unit TX -/

theorem test_txEnq_wraps : let t := after (exec (.txEnq 0x42#8) (txAt 7 6 false false 0 0 []))
    t.answers = [0x00000#20] ∧ txView t = (0, 6, false, false, 0, 0) ∧ t.tx.mem = [(7, 0x42#8)] := by decide
theorem test_txEnq_full : let t := after (exec (.txEnq 0x48#8) (txAt 5 6 false false 0 0 []))
    t.answers = [0x30000#20] ∧ txView t = (5, 6, false, false, 0, 0) := by decide
theorem test_txStart_stops_at_the_end : let t := after (exec .txStart (txAt 5 6 false false 0 0 []))
    t.answers = [0x00000#20] ∧ txView t = (5, 0, true, false, 6, 2) := by decide
theorem test_txStart_busy_first : let t := after (exec .txStart (txAt 4 4 true false 2 1 []))
    t.answers = [0x10000#20] ∧ txView t = (4, 4, true, false, 2, 1) := by decide
theorem test_txEvt_chains : let t := after (exec .txEvt (txAt 5 0 true true 8 0 []))
    t.answers = [0x00000#20] ∧ txView t = (5, 5, true, false, 0, 5) := by decide
theorem test_txEvt_spurious : let t := after (exec .txEvt (txAt 5 0 true false 7 1 []))
    t.answers = [0x50000#20] ∧ txView t = (5, 0, true, false, 7, 1) := by decide
theorem test_xtx_last_byte : let t := after (xtxStep (txAt 5 0 true false 7 1 [(7, 0x42#8)]))
    t.txOut = [0x42#8] ∧ txView t = (5, 0, true, true, 8, 0) := by decide

/-! ### Section 2.5: unit RX -/

theorem test_rxStart : let t := after (exec .rxStart (rxAt 2 3 false []))
    t.answers = [0x00000#20] ∧ t.rx = ⟨[], 0#16, true, 4#16⟩ := by decide
theorem test_rxStart_running : goesOn (exec .rxStart (rxAt 2 1 true [])) = false := by decide
theorem test_rxStop : let t := after (exec .rxStop (rxAt 3 1 true []))
    t.answers = [0x00000#20] ∧ t.rx = ⟨[], 1#16, false, 3#16⟩ := by decide
theorem test_rxAvail : (after (exec .rxAvail (rxAt 4 1 true []))).answers = [0x00003#20] ∧
    (after (exec .rxAvail (rxAt 1 0 true []))).answers = [0x00003#20] := by decide
theorem test_rxRead_wraps : let t := after (exec .rxRead (rxAt 3 3 true [(3, 0x33#8)]))
    t.answers = [0x00033#20] ∧ t.rx = ⟨[(3, 0x33#8)], 0#16, true, 3#16⟩ := by decide
theorem test_rxRead_stale : let t := after (exec .rxRead (rxAt 4 0 true []))
    t.rx = ⟨[], 1#16, true, 4#16⟩ ∧ ((after (exec .rxAvail t)).answers.getLast? = some 0x00003#20) := by decide
theorem test_xrx_reloads : let t := after (xrxStep ((rxAt 1 0 true []).setRxIn [0x5B#8]))
    t.rx = ⟨[(3, 0x5B#8)], 0#16, true, 4#16⟩ ∧ t.rxIn = [] := by decide

/-! ### Section 2.6: unit LED -/

theorem test_ledClear : let t := after (exec .ledClear (ledAt true true true false 7 41 []))
    t.answers = [0x00000#20] ∧ ledView t = (true, true, true, false, 7, 41) ∧
      t.led.enc.map Prod.snd = List.replicate 48 cfg.code0 := by decide
theorem test_ledWrite_bit_order : let t := after (exec (.ledWrite 1#16 0x800001#24) base)
    t.answers = [0x00000#20] ∧ t.led.enc =
      (24, cfg.code1) :: ((List.range 22).map fun i => (25 + i, cfg.code0)) ++ [(47, cfg.code1)] := by decide
theorem test_ledWrite_colour : ((after (exec (.ledWrite 0#16 0x123456#24) base)).led.enc.map fun c => c.2 == cfg.code1) =
    [false, false, false, true, false, false, true, false, false, false, true, true, false, true, false, false,
     false, true, false, true, false, true, true, false] := by decide
theorem test_ledUpdate_starts : let t := after (exec .ledUpdate (ledAt false false false false 48 0 []))
    t.answers = [0x00000#20] ∧ ledView t = (true, true, true, false, 0, 48) ∧ t.ledOut = [.frame] := by decide
theorem test_ledUpdate_dropped : let t := after (exec .ledUpdate (ledAt true true true true 48 0 []))
    t.answers = [0x00000#20] ∧ ledView t = (true, true, true, true, 48, 0) ∧ t.ledOut = [] := by decide
theorem test_ledEvt : let t := after (exec .ledEvt (ledAt true true true true 48 0 []))
    t.answers = [0x00000#20] ∧ ledView t = (false, false, false, false, 48, 0) ∧ t.led.phase = cfg.phaseIdle := by decide
theorem test_ledEvt_spurious : let t := after (exec .ledEvt (ledAt true true true false 7 41 []))
    t.answers = [0x50000#20] ∧ ledView t = (true, true, true, false, 7, 41) := by decide
theorem test_xled_last_pulse : let t := after (xledStep (ledAt true true true false 47 1 [(47, 0x2D#8)]))
    t.ledOut = [.pulse 0x2D#8] ∧ ledView t = (true, true, true, true, 48, 0) := by decide

/-! ### How the host reaches an operation -/

theorem test_withFetchWord : (after (step (State.reset.withFetchWord 48 0x110000000000))).answers = [0x20000#20] ∧
    (after (step (State.reset.withFetchWord 48 0x110000000001))).answers = [0xF0000#20] := by decide

/-! ### States that meet the hypotheses of the statements, a boundary value for each clause -/

/-- A state put before one turn. -/
def before (turn : Turn) (s : State) : State := s.setSched [turn]

/-- A state in which `HOST` stands at a micro-step and has the next turn. -/
def hostAt (p : HostPos) (s : State) : State := before .host (s.setHost p)

/-- The invariant, part by part, for a state given in full. -/
theorem inv_of {s : State} (h1 : decide s.cfg.Valid = true) (h2 : decide (RbOk s) = true) (h3 : decide (TxOk s) = true)
    (h4 : decide (RxOk s) = true) (h5 : decide (LedOk s) = true) (h6 : decide (TxFlagsOk s) = true)
    (h7 : decide (LedFlagsOk s) = true) (h8 : hostOk s = true) : Inv s :=
  ⟨of_decide_eq_true h1, of_decide_eq_true h2, of_decide_eq_true h3, of_decide_eq_true h4, of_decide_eq_true h5,
    fun _ => of_decide_eq_true h6, fun _ => of_decide_eq_true h7, h8⟩

theorem inv_base : Inv base := inv_of rfl rfl rfl rfl rfl rfl rfl rfl

theorem witness_WorkedEncodings : cfg.stripLength = 2 := rfl
theorem witness_DecodeInvertsEncode : (Instr.ledWrite 1#16 0xFFFFFF#24).wellFormed cfg = true := by decide
theorem witness_EncodeInvertsDecode : decode cfg 0x310001FFFFFF#48 = .instr (.ledWrite 1#16 0xFFFFFF#24) := by decide
theorem witness_IllegalWordsByField :
    decode cfg 0x050000000000#48 = .illegal .noSuchOperation ∧ decode cfg 0x130000000000#48 = .illegal .noSuchOperation ∧
    decode cfg 0x240000000000#48 = .illegal .noSuchOperation ∧ decode cfg 0x340000000000#48 = .illegal .noSuchOperation ∧
    decode cfg 0x400000000000#48 = .illegal .noSuchOperation ∧
    opcodeByte 0x338000000000#48 = 0x33#8 ∧ (0x338000000000#48).extractLsb' 0 40 ≠ 0#40 ∧
    opcodeByte 0x100000000100#48 = 0x10#8 ∧ (0x100000000100#48).extractLsb' 8 32 ≠ 0#32 ∧
    opcodeByte 0x310001000000#48 = 0x31#8 ∧ (idxField 0x310001000000#48).toNat + 1 = cfg.stripLength ∧
    opcodeByte 0x310002000000#48 = 0x31#8 ∧ (idxField 0x310002000000#48).toNat = cfg.stripLength := by
  refine ⟨by decide, by decide, by decide, by decide, by decide, by decide, by decide, by decide, by decide, by decide,
    by decide, by decide, by decide⟩
theorem witness_RowsSelectAndExclude : let w := 0x0000000000FF#48
    decode cfg w = .instr (.rbPush 0xFF#8) ∧ w &&& (Instr.rbPush 0#8).row.mask = (Instr.rbPush 0#8).row.pattern := by decide
theorem witness_ResponseWordFields : statusCode .illegal = statusCode .illegal := rfl

theorem witness_StepRunsTheDecodedCommand : let s := (before .hostOp base).setProgram [0x310001FF0000#48]
    s.sched = .hostOp :: [] ∧ s.host = .idle ∧ s.program = 0x310001FF0000#48 :: [] ∧
      decode s.cfg 0x310001FF0000#48 = .instr (.ledWrite 1#16 0xFF0000#24) := by decide
theorem witness_LoadedCommandRunsNext :
    decode base.cfg (BitVec.ofNat 48 (0x010000000000 % 2 ^ 48)) = .instr .rbPop := by decide
theorem witness_EventTurnRunsTheHandler : (before (.evt .tx) base).sched = .evt .tx :: [] := rfl
theorem witness_IllegalWordChangesNothing : let s := (before .host base).setProgram [0x310002000000#48]
    s.sched = .host :: [] ∧ s.host = .idle ∧ s.program = 0x310002000000#48 :: [] ∧
      decode s.cfg 0x310002000000#48 = .illegal .ledIndexOutOfRange ∧ s.cfg.stripLength ≤ (2#16).toNat ∧
      Answers s (after (exec (.ledWrite 2#16 0#24) s)) .illegal 0#16 := by decide
theorem witness_MicroStepsMakeTheOperation : let s := base.setProgram [0x300000000000#48]
    s.host = .idle ∧ s.program = 0x300000000000#48 :: [] := by decide
theorem witness_DisabledTurnsPass : (before .xtx base).tx.active = false ∧ (before .xtx (txAt 5 0 true true 8 0 [])).tx.cnt = 0#16 ∧
    (before .xrx base).rx.run = false ∧ (before .xrx (rxAt 4 0 true [])).rxIn = [] ∧ (before .xled base).led.xferEn = false ∧
    (before .xled (ledAt true true true true 48 0 [])).led.cnt = 0#21 ∧ (before .host base).host = .idle ∧
    (before .hostOp base).program = [] := by decide

theorem witness_CursorFunctionsAreReductions : (65534 < 65535 ∧ 0 < 65535) ∧ (0 < 1 ∧ 0 < 1 ∧ 0 < 1) := by decide
theorem witness_EmptyAndFull : 2 ≤ 2 ∧ 1 < 2 ∧ 0 < 2 ∧ inc 2 1 = 0 := by decide
theorem witness_ProducerAndConsumerLaws : cursorDist 4 1 3 < 4 - 1 ∧ cursorDist 4 0 1 = 4 - 1 ∧ 0 < cursorDist 4 0 3 ∧
    cursorDist 4 2 2 = 0 := by decide
theorem witness_PositionLaw : 5 < 8 ∧ 6 < 8 ∧ 7 ≤ cursorDist 8 5 6 := by decide
theorem witness_RunLaw : 1 ≤ cursorDist 8 5 6 ∧ run 8 5 6 < cursorDist 8 5 6 := by decide

theorem witness_RbPushStoresAndAdvances : RbOk (rbAt 3 0 []) ∧ inc 4 3 = 0 ∧ RbOk (rbAt 3 1 []) ∧ inc 4 3 ≠ 1 ∧
    cfg.Valid := by decide
theorem witness_RbPopReadsAndAdvances : RbOk (rbAt 0 3 []) ∧ (rbAt 0 3 []).rb.head ≠ (rbAt 0 3 []).rb.tail ∧
    RbOk (rbAt 3 3 []) ∧ (rbAt 3 3 []).rb.head = (rbAt 3 3 []).rb.tail ∧ cfg.Valid := by decide
theorem witness_RbQueriesAnswerAndChangeNothing : (rbAt 3 0 []).cfg.Valid ∧ RbOk (rbAt 3 0 []) := by decide
theorem witness_RingBufferIsAFifoQueue : let s := rbAt 3 2 [(2, 0x41#8)]
    s.cfg.Valid ∧ RbOk s ∧ rbResident s = [0x41#8] ∧
      queueRun (s.cfg.nRb - 1) [.rbPush 0x42#8, .rbPush 0x43#8, .rbPush 0x44#8, .rbIsFull, .rbPop, .rbAvail] [0x41#8] =
        some ([0x00000#20, 0x00000#20, 0x30000#20, 0x00001#20, 0x00041#20, 0x00002#20], [0x42#8, 0x43#8]) := by decide

theorem witness_TxEnqStoresAndAdvances : TxOk (txAt 7 0 false false 0 0 []) ∧ inc 8 7 = 0 ∧
    TxOk (txAt 7 6 true false 0 6 []) ∧ inc 8 7 ≠ 6 ∧ cfg.Valid := by decide
/-- The event of a finished run, with bytes left to chain, falls between s2 and s3 of an enqueue. -/
theorem witness_EnqueueStoresBeforeHeadMoves : Inv (hostAt (.txEnqS2 7#16 0x42#8) (txAt 7 6 false false 0 0 [])) ∧
    Inv (before (.evt .tx) ((txAt 6 0 true true 8 0 []).setHost (.txEnqS3 6#16))) ∧
    goesOn (step (before (.evt .tx) ((txAt 6 0 true true 8 0 []).setHost (.txEnqS3 6#16)))) = true ∧
    Inv (hostAt (.txEnqS3 7#16) (txAt 7 6 false false 0 0 [])) :=
  ⟨inv_of rfl rfl rfl rfl rfl rfl rfl rfl, inv_of rfl rfl rfl rfl rfl rfl rfl rfl, by decide,
    inv_of rfl rfl rfl rfl rfl rfl rfl rfl⟩
theorem witness_TxStartArmsCommitsAndStarts : TxOk (txAt 4 4 true false 3 1 []) ∧ TxOk (txAt 4 4 false false 0 0 []) ∧
    TxOk (txAt 0 5 false false 0 0 []) ∧ (txAt 0 5 false false 0 0 []).tx.head ≠ (txAt 0 5 false false 0 0 []).tx.tail ∧
    cfg.Valid := by decide
theorem witness_TxEvtAcknowledgesAndChains : TxOk (txAt 5 0 true false 7 1 []) ∧ TxOk (txAt 5 5 true true 5 0 []) ∧
    TxOk (txAt 5 0 true true 8 0 []) ∧ cfg.Valid := by decide
theorem witness_XtxMovesOneByte : Inv (before .xtx (txAt 5 0 true false 7 1 [])) := inv_of rfl rfl rfl rfl rfl rfl rfl rfl
/-- `TX` between s3 and s5 of a `TX.START`, where the flag invariants are not asked. -/
theorem inv_inside {s : State} (h1 : decide s.cfg.Valid = true) (h2 : decide (RbOk s) = true) (h3 : decide (TxOk s) = true)
    (h4 : decide (RxOk s) = true) (h5 : decide (LedOk s) = true) (h6 : outsideTxStart s.host = false)
    (h7 : decide (LedFlagsOk s) = true) (h8 : hostOk s = true) : Inv s :=
  ⟨of_decide_eq_true h1, of_decide_eq_true h2, of_decide_eq_true h3, of_decide_eq_true h4, of_decide_eq_true h5,
    fun h => absurd (h6.symm.trans h) (by decide), fun _ => of_decide_eq_true h7, h8⟩

/-- `N - 1` bytes are unsent, the last one of the run still moving and the others resident, and `HOST` enqueues one more: by a whole
operation, and by the micro-steps s2 and s3. -/
theorem witness_TransmitKeepsEnqueueOrder_enqueue :
    let s := (before .hostOp (txAt 6 0 true false 7 1 [])).setProgram [0x10000000007E#48]
    let s2 := hostAt (.txEnqS2 6#16 0x7E#8) (txAt 6 0 true false 7 1 [])
    let s3 := hostAt (.txEnqS3 6#16) (txAt 6 0 true false 7 1 [(6, 0x7E#8)])
    Inv s ∧ enqueueStores .hostOp s = true ∧ acceptedByTurn .hostOp s = [0x7E#8] ∧ txUnsentCount s = s.cfg.nTx - 1 ∧
      goesOn (step s) = true ∧
    Inv s2 ∧ enqueueStores .host s2 = true ∧ txUnsentCount s2 = s2.cfg.nTx - 1 ∧ goesOn (step s2) = true ∧
    Inv s3 ∧ enqueueStores .host s3 = false ∧ acceptedByTurn .host s3 = [0x7E#8] ∧ goesOn (step s3) = true :=
  ⟨inv_of rfl rfl rfl rfl rfl rfl rfl rfl, by decide, by decide, by decide, by decide, inv_of rfl rfl rfl rfl rfl rfl rfl rfl,
    by decide, by decide, by decide, inv_of rfl rfl rfl rfl rfl rfl rfl rfl, by decide, by decide, by decide⟩
/-- The micro-steps s3 to s5 of a `TX.START`, and an event that falls before s4 (the run armed and still resident) and before s5. -/
theorem witness_TransmitKeepsEnqueueOrder_start :
    let s4 := txAt 5 6 false false 6 2 []
    let s5 := txAt 5 0 false false 6 2 []
    Inv (hostAt (.txStartS3 6#16 2#16) (txAt 5 6 false false 0 0 [])) ∧ Inv (hostAt (.txStartS4 6#16 2#16) s4) ∧
    Inv (hostAt .txStartS5 s5) ∧ Inv (before (.evt .tx) (s4.setHost (.txStartS4 6#16 2#16))) ∧
    Inv (before (.evt .tx) (s5.setHost .txStartS5)) ∧ goesOn (step (hostAt (.txStartS4 6#16 2#16) s4)) = true :=
  ⟨inv_of rfl rfl rfl rfl rfl rfl rfl rfl, inv_inside rfl rfl rfl rfl rfl rfl rfl rfl, inv_inside rfl rfl rfl rfl rfl rfl rfl rfl,
    inv_inside rfl rfl rfl rfl rfl rfl rfl rfl, inv_inside rfl rfl rfl rfl rfl rfl rfl rfl, by decide⟩
theorem witness_OneStartFlushesTheBacklog : let s := (txAt 5 6 false false 0 0 []).setProgram [encode .txStart]
    Inv s ∧ s.host = .idle ∧ s.tx.active = false ∧ s.tx.head ≠ s.tx.tail ∧ s.program = encode .txStart :: [] ∧
      run s.cfg.nTx s.tx.head.toNat s.tx.tail.toNat = 2 ∧ cursorDist s.cfg.nTx s.tx.head.toNat s.tx.tail.toNat = 7 :=
  ⟨inv_of rfl rfl rfl rfl rfl rfl rfl rfl, rfl, rfl, by decide, rfl, by decide, by decide⟩
/-- A free slot with `N - 1` and with `N` unsent bytes, a full buffer with `N`, and the micro-step that stores with `N`. -/
theorem witness_EnqueueOverwritesExactlyWhenUnsentReachesN :
    Inv (txAt 4 0 true false 5 3 []) ∧ inc 8 4 ≠ 0 ∧ txUnsentCount (txAt 4 0 true false 5 3 []) = 7 ∧
    Inv (txAt 5 0 true false 5 3 []) ∧ inc 8 5 ≠ 0 ∧ txUnsentCount (txAt 5 0 true false 5 3 []) = 8 ∧
    Inv (txAt 7 0 true false 7 1 []) ∧ inc 8 7 = 0 ∧ txUnsentCount (txAt 7 0 true false 7 1 []) = 8 ∧
    Inv (hostAt (.txEnqS2 5#16 0x7E#8) (txAt 5 0 true false 5 3 [])) :=
  ⟨inv_of rfl rfl rfl rfl rfl rfl rfl rfl, by decide, by decide, inv_of rfl rfl rfl rfl rfl rfl rfl rfl, by decide, by decide,
    inv_of rfl rfl rfl rfl rfl rfl rfl rfl, by decide, by decide, inv_of rfl rfl rfl rfl rfl rfl rfl rfl⟩
theorem witness_InFlightAndResidentSlotsDisjoint : let s := txAt 7 0 true false 7 1 []
    Inv s ∧ outsideTxStart s.host = true ∧ s.tx.active = true ∧ txUnsentCount s ≤ s.cfg.nTx ∧ 0 < s.tx.cnt.toNat ∧
      6 < cursorDist s.cfg.nTx s.tx.head.toNat s.tx.tail.toNat :=
  ⟨inv_of rfl rfl rfl rfl rfl rfl rfl rfl, rfl, rfl, by decide, by decide, by decide⟩
/-- In each arming operation, an event falls between two micro-steps. -/
theorem witness_ArmingIsUndisturbed :
    Inv (before (.evt .tx) ((txAt 5 6 false false 0 0 []).setHost (.txStartS3 6#16 2#16))) ∧
    Inv (before .xrx (((rxAt 4 0 false []).setRxIn [0#8]).setHost .rxStartS4)) ∧
    Inv (before (.evt .led) ((ledAt false false false false 48 0 []).setHost .ledUpdateS2)) :=
  ⟨inv_of rfl rfl rfl rfl rfl rfl rfl rfl, inv_of rfl rfl rfl rfl rfl rfl rfl rfl, inv_of rfl rfl rfl rfl rfl rfl rfl rfl⟩

theorem witness_RxStartArmsTheWholeBuffer : cfg.Valid ∧ (rxAt 2 3 false []).rx.run = false ∧
    (rxAt 2 1 true []).rx.run = true := by decide
theorem witness_RxAvailIsTheVirtualHeadDistance : RxOk (rxAt 4 3 true []) ∧ RxOk (rxAt 1 0 true []) ∧ cfg.Valid := by decide
theorem witness_RxReadNeverFails : RxOk (rxAt 1 3 true []) ∧ rxCount (rxAt 1 3 true []) = 0 ∧ cfg.Valid := by decide
theorem witness_XrxStoresOneByte : Inv (before .xrx ((rxAt 1 0 true []).setRxIn [0x5B#8])) ∧
    Inv (before .xrx ((rxAt 4 0 true []).setRxIn [0x5A#8])) :=
  ⟨inv_of rfl rfl rfl rfl rfl rfl rfl rfl, inv_of rfl rfl rfl rfl rfl rfl rfl rfl⟩
theorem witness_RxAvailCountsReceivedMinusRead : cfg.Valid ∧ RxOk (rxAt 2 3 false []) ∧ (rxAt 2 3 false []).rx.run = false ∧
    rxRead [.receive 1#8, .receive 2#8, .receive 3#8] = 0 ∧ rxWritten [.receive 1#8, .receive 2#8, .receive 3#8] < cfg.nRx := by
  decide
theorem witness_RxKeepsReceiveOrder : let s := rxAt 2 0 true [(0, 0xA1#8), (1, 0xA2#8)]
    s.cfg.Valid ∧ RxOk s ∧ s.rx.run = true ∧ rxCount s < s.cfg.nRx - 1 ∧ rxUnread s = 0xA1#8 :: [0xA2#8] := by decide

theorem witness_LedWriteStoresTheColour : (1#16).toNat < base.cfg.stripLength := by decide
theorem witness_EncoderStoresOneByteAMicroStep : Inv ((hostAt .idle base).setProgram [encode (.ledWrite 1#16 0xFF0000#24)]) ∧
    (1#16).toNat + 1 = base.cfg.stripLength ∧ Inv ((hostAt .idle base).setProgram [encode .ledClear]) ∧
    Inv (hostAt (.ledWriteAt 1#16 0xFF0000#24 22) base) ∧ Inv (hostAt (.ledWriteAt 1#16 0xFF0000#24 23) base) ∧
    Inv (hostAt (.ledClearAt 46) base) ∧ Inv (hostAt (.ledClearAt 47) base) :=
  ⟨inv_of rfl rfl rfl rfl rfl rfl rfl rfl, by decide, inv_of rfl rfl rfl rfl rfl rfl rfl rfl, inv_of rfl rfl rfl rfl rfl rfl rfl rfl,
    inv_of rfl rfl rfl rfl rfl rfl rfl rfl, inv_of rfl rfl rfl rfl rfl rfl rfl rfl, inv_of rfl rfl rfl rfl rfl rfl rfl rfl⟩
theorem witness_LedUpdateArmsOrDrops : cfg.Valid ∧ (ledAt false false false false 48 0 []).led.inflight = false ∧
    (ledAt true true true true 48 0 []).led.inflight = true := by decide
theorem witness_LedEvtReturnsToIdle : (ledAt true true true false 47 1 []).led.tc = false ∧
    (ledAt true true true true 48 0 []).led.tc = true := by decide
theorem witness_XledEmitsOnePulse : Inv (before .xled (ledAt true true true false 47 1 [])) := inv_of rfl rfl rfl rfl rfl rfl rfl rfl
theorem witness_FrameSendsTheWholeBuffer : Inv (ledAt false false false false 48 0 []) ∧
    (ledAt false false false false 48 0 []).led.inflight = false := ⟨inv_of rfl rfl rfl rfl rfl rfl rfl rfl, rfl⟩
/-- A frame is going out of a buffer that holds codes, and the next command writes a colour. -/
theorem witness_EncodeBufferHoldsOnlyCodes :
    let s := (before .hostOp (ledAt true true true false 7 41 ((List.range 48).map fun i => (i, cfg.code0)))).setProgram
      [0x310001FF0000#48]
    Inv s ∧ s.sched = .hostOp :: [] ∧ goesOn (step s) = true ∧ (encBytes s).all (fun b => b == cfg.code0 || b == cfg.code1) :=
  ⟨inv_of rfl rfl rfl rfl rfl rfl rfl rfl, rfl, by decide, by decide⟩
theorem witness_LedStateMachine : cfg.Valid ∧ goesOn (exec .ledUpdate (ledAt false false false false 48 0 [])) = true ∧
    goesOn (exec .ledUpdate (ledAt true true true false 47 1 [])) = true ∧
    goesOn (exec .ledEvt (ledAt true true true true 48 0 [])) = true := by decide

theorem witness_StatusesExactly : TxOk (txAt 4 4 true false 3 1 []) ∧
    Answers (txAt 4 4 true false 3 1 []) (after (exec .txStart (txAt 4 4 true false 3 1 []))) .busy 0#16 ∧
    Answers base (after (exec .txStart base)) .empty 0#16 ∧
    Answers (rbAt 3 0 []) (after (exec (.rbPush 0#8) (rbAt 3 0 []))) .outOfMemory 0#16 ∧
    Answers base (after (exec .ledEvt base)) .fail 0#16 := by decide
theorem witness_FlagsChangeOnlyAsTheTableSays : goesOn (exec .txEvt (txAt 5 0 true true 8 0 [])) = true ∧
    goesOn (xtxStep (txAt 5 0 true false 7 1 [])) = true ∧ goesOn (xrxStep ((rxAt 1 0 true []).setRxIn [0#8])) = true ∧
    goesOn (xledStep (ledAt true true true false 47 1 [])) = true := by decide
theorem witness_OperationsWriteTheirOwnUnit : goesOn (exec (.rbPush 0#8) (rbAt 3 1 [])) = true := by decide
/-- Two states that differ in every other unit. -/
theorem witness_OperationsReadTheirOwnUnit :
    SameUnit (unitOf .txStart) (txAt 5 6 false false 0 0 []) ((txAt 5 6 false false 0 0 []).setRb (rbAt 3 1 []).rb) ∧
    goesOn (exec .txStart (txAt 5 6 false false 0 0 [])) = true := ⟨⟨rfl, rfl, rfl⟩, by decide⟩

theorem witness_ResetLeavesTheListedValues : let s := before .reset (txAt 5 0 true true 8 0 [])
    s.cfg.Valid ∧ s.sched = .reset :: [] := by decide
/-- The smallest and the largest parameters R8 admits. -/
theorem witness_FirstOperationAfterReset : resetConfig.Valid ∧
    ({ cfg with nRb := 2, nTx := 2, nRx := 2, stripLength := 1 } : Config).Valid := by decide
theorem witness_ResetMeetsTheInvariant : cfg.Valid := by decide
theorem witness_EveryStepKeepsTheInvariant : Inv (hostAt (.txEnqS3 7#16) (txAt 7 6 false false 0 0 [])) ∧
    goesOn (step (hostAt (.txEnqS3 7#16) (txAt 7 6 false false 0 0 []))) = true :=
  ⟨inv_of rfl rfl rfl rfl rfl rfl rfl rfl, by decide⟩
/-- One state for each of the two stops. -/
theorem witness_StepsStopOnlyWhereTheSpecIsUndefined :
    let s := (before .hostOp (rbAt 2 2 [])).setProgram [0x010000000000#48]
    let s' := (before .hostOp (rxAt 2 1 true [])).setProgram [0x200000000000#48]
    Inv s ∧ goesOn (step s) = false ∧ Inv s' ∧ goesOn (step s') = false :=
  ⟨inv_of rfl rfl rfl rfl rfl rfl rfl rfl, by decide, inv_of rfl rfl rfl rfl rfl rfl rfl rfl, by decide⟩

end Sys2Proof.Tests
end

section
/-! SUPPORT. A command taken one micro-step after the other does what it does whole (R14, R73). -/

namespace Sys2Proof.Machine

/-! ### Runs of steps -/

/-- `k` steps, stopping at the first fault or refusal: Host.Core.run at this machine's own types (`core_run_eq`). -/
def runSteps : Nat → State → Result
  | 0, s => .next s
  | k + 1, s => andThen (step s) (runSteps k)

theorem core_run_eq (k : Nat) (s : State) : Host.Core.run core k s = runSteps k s := by
  induction k generalizing s with
  | zero => rfl
  | succ k ih =>
    refine (Host.Core.run.eq_2 core s k).trans ?_
    change _ = andThen (core.step s) (runSteps k)
    cases core.step s with
    | next t => exact ih t
    | fault f => rfl
    | refused q => rfl

/-- The state with `HOST` standing at `p` and the turns `l` to come. -/
def State.standing (s : State) (p : HostPos) (l : List Turn) : State := (s.setHost p).setSched l

theorem step_standing {p : HostPos} (hp : p ≠ .idle) (s : State) (l : List Turn) :
    step (s.standing p (.host :: l)) = hostMicro p (s.standing p l) :=
  hostTurn_inside (s := s.standing p l) hp

theorem storeByte_standing (u : MemId) (i : Nat) (v : Byte) (s : State) (p : HostPos) (l : List Turn) :
    storeByte u i v (s.standing p l) =
      if i < memSize s.cfg u then .next ((s.setMem u ((s.mem u).write i v)).standing p l) else .fault .noSuchByte := by
  cases u <;> rfl

theorem withByte_standing (u : MemId) (i : Nat) (s : State) (p : HostPos) (l : List Turn) (k : Byte → Result) :
    withByte u i (s.standing p l) k = if i < memSize s.cfg u then k (byteAt s u i) else .fault .noSuchByte := by
  cases u <;> rfl

/-! ### Operations that end within a number of turns of `HOST` -/

/-- `r l` is what a micro-step of `HOST` answers when the turns `l` are still to come. Given fewer than `n` further turns of `HOST`
and then `rest`, the operation ends in `fin`: it returns, or stops, as `fin` does. -/
def EndsWithin (n : Nat) (rest : List Turn) (r : List Turn → Result) (fin : Result) : Prop :=
  ∃ k, k < n ∧ andThen (r (List.replicate k .host ++ rest)) (runSteps k) = fin

section
variable {n : Nat} {rest : List Turn} {r : List Turn → Result} {fin : Result}

/-- The micro-step itself ends the operation. -/
theorem EndsWithin.last (h : r rest = fin) : EndsWithin (n + 1) rest r fin := by
  refine ⟨0, Nat.succ_pos n, ?_⟩
  subst h
  show andThen (r rest) .next = r rest
  cases r rest <;> rfl

/-- The micro-step leaves `HOST` at `p` in `s`, from where the operation ends in time. -/
theorem EndsWithin.goesOn (p : HostPos) (s : State) (hr : ∀ l, r l = .next (s.standing p l))
    (h : EndsWithin n rest (fun l => hostMicro p (s.standing p l)) fin) (hp : p ≠ .idle := by nofun) :
    EndsWithin (n + 1) rest r fin := by
  obtain ⟨k, hk, hrun⟩ := h
  refine ⟨k + 1, Nat.succ_lt_succ hk, ?_⟩
  calc andThen (r (List.replicate (k + 1) .host ++ rest)) (runSteps (k + 1))
      = andThen (step (s.standing p (.host :: (List.replicate k .host ++ rest)))) (runSteps k) := by rw [hr]; rfl
    _ = fin := by rw [step_standing hp]; exact hrun

theorem EndsWithin.mono {m : Nat} (h : EndsWithin n rest r fin) (hm : n ≤ m) : EndsWithin m rest r fin := by
  obtain ⟨k, hk, hrun⟩ := h
  exact ⟨k, Nat.lt_of_lt_of_le hk hm, hrun⟩

theorem EndsWithin.congr {r' : List Turn → Result} (hr : ∀ l, r l = r' l) (h : EndsWithin n rest r' fin) :
    EndsWithin n rest r fin := by
  rwa [show r = r' from funext hr]

variable {u : MemId} {i : Nat} {s : State} {q : HostPos}

/-- The micro-step stores a byte and leaves `HOST` at `p`; whole, the operation is the store and then `k`. -/
theorem EndsWithin.stores {v : Byte} {k : State → Result} (p : HostPos)
    (h : EndsWithin (n + 1) rest (fun l => hostMicro p ((s.setMem u ((s.mem u).write i v)).standing p l))
      (k ((s.setMem u ((s.mem u).write i v)).standing .idle rest))) (hp : p ≠ .idle := by nofun) :
    EndsWithin (n + 2) rest (fun l => andThen (storeByte u i v (s.standing q l)) (goOn p))
      (andThen (storeByte u i v (s.standing .idle rest)) k) := by
  simp only [storeByte_standing]
  split
  · exact .goesOn p _ (fun _ => rfl) h hp
  · exact .last rfl

/-- The micro-step loads a byte and leaves `HOST` at `p`, which holds the byte; whole, the operation is the load and then `k`. -/
theorem EndsWithin.loads {k : Byte → Result} (p : Byte → HostPos)
    (h : ∀ v, EndsWithin (n + 1) rest (fun l => hostMicro (p v) (s.standing (p v) l)) (k v))
    (hp : ∀ v, p v ≠ .idle := by nofun) :
    EndsWithin (n + 2) rest (fun l => withByte u i (s.standing q l) fun v => goOn (p v) (s.standing q l))
      (withByte u i (s.standing .idle rest) k) := by
  simp only [withByte_standing]
  split
  · exact .goesOn (p _) s (fun _ => rfl) (h _) (hp _)
  · exact .last rfl

end

/-! ### The three ends of `TX.START` -/

theorem execTxStart_busy {s : State} (ha : s.tx.active = true) : execTxStart s = answered .busy 0#16 s := by
  simp [execTxStart, txStartBody, ha]

theorem execTxStart_empty {s : State} (ha : ¬ s.tx.active = true) (hr : txStartRun s = none) :
    execTxStart s = answered .empty 0#16 s := by
  simp [execTxStart, txStartBody, ha, hr]

theorem execTxStart_armed {s : State} {t r : Cursor} (ha : ¬ s.tx.active = true) (hr : txStartRun s = some (t, r)) :
    execTxStart s = answered .ok 0#16 (txStartGo (txStartCommit t r (txStartArm t r s))) := by
  simp [execTxStart, txStartBody, ha, hr]

/-! ### The operations of several micro-steps, each from its first one -/

/-- `HOST`, idle in `s`, takes the micro-steps of `i` one after the other, fewer than `n` after the first, and ends as the whole
operation does. -/
abbrev MicroStepsEnd (s : State) (rest : List Turn) (n : Nat) (i : Instr) : Prop :=
  EndsWithin n rest (fun l => hostBegin i (s.standing .idle l)) (exec i (s.standing .idle rest))

section
variable (s : State) (rest : List Turn)

theorem rbPush_microStepsEnd (b : Byte) : MicroStepsEnd s rest 3 (.rbPush b) := by
  by_cases hf : isFull s.cfg.nRb s.rb.head s.rb.tail = true
  · have hslot : ∀ l, rbPushSlot (s.standing .idle l) = none := fun _ => if_pos hf
    exact .last (by simp only [hostBegin, exec, execRbPush, hslot])
  · have hslot : ∀ l, rbPushSlot (s.standing .idle l) = some s.rb.head := fun _ => if_neg hf
    simp only [MicroStepsEnd, hostBegin, exec, execRbPush, hslot]
    exact .goesOn (.rbPushS2 s.rb.head b) s (fun _ => rfl) <| .stores (.rbPushS3 s.rb.head) <| .last rfl

theorem rbPop_microStepsEnd : MicroStepsEnd s rest 3 .rbPop := by
  by_cases he : isEmpty s.rb.head s.rb.tail = true
  · have hslot : ∀ l, rbPopSlot (s.standing .idle l) = none := fun _ => if_pos he
    exact .last (by simp only [hostBegin, exec, execRbPop, hslot])
  · have hslot : ∀ l, rbPopSlot (s.standing .idle l) = some s.rb.tail := fun _ => if_neg he
    simp only [MicroStepsEnd, hostBegin, exec, execRbPop, hslot]
    exact .goesOn (.rbPopS2 s.rb.tail) s (fun _ => rfl) <| .loads (.rbPopS3 s.rb.tail) fun _ => .last rfl

theorem txEnq_microStepsEnd (b : Byte) : MicroStepsEnd s rest 3 (.txEnq b) := by
  by_cases hf : isFull s.cfg.nTx s.tx.head s.tx.tail = true
  · have hslot : ∀ l, txEnqSlot (s.standing .idle l) = none := fun _ => if_pos hf
    exact .last (by simp only [hostBegin, exec, execTxEnq, hslot])
  · have hslot : ∀ l, txEnqSlot (s.standing .idle l) = some s.tx.head := fun _ => if_neg hf
    simp only [MicroStepsEnd, hostBegin, exec, execTxEnq, hslot]
    exact .goesOn (.txEnqS2 s.tx.head b) s (fun _ => rfl) <| .stores (.txEnqS3 s.tx.head) <| .last rfl

theorem txStart_microStepsEnd : MicroStepsEnd s rest 5 .txStart := by
  by_cases ha : s.tx.active = true
  · exact .last ((if_pos ha).trans (execTxStart_busy (s := s.standing .idle rest) ha).symm)
  refine .goesOn .txStartS2 s (fun _ => if_neg ha) ?_
  cases hrun : txStartRun s with
  | none =>
    have hs : ∀ p l, txStartRun (s.standing p l) = none := fun _ _ => hrun
    simp only [hostMicro, hs, exec, execTxStart_empty (s := s.standing .idle rest) ha (hs _ _)]
    exact .last rfl
  | some tr =>
    obtain ⟨t, r⟩ := tr
    have hs : ∀ p l, txStartRun (s.standing p l) = some (t, r) := fun _ _ => hrun
    simp only [hostMicro, hs, exec, execTxStart_armed (s := s.standing .idle rest) ha (hs _ _)]
    exact .goesOn (.txStartS3 t r) s (fun _ => rfl) <|
      .goesOn (.txStartS4 t r) (txStartArm t r s) (fun _ => rfl) <|
      .goesOn .txStartS5 (txStartCommit t r (txStartArm t r s)) (fun _ => rfl) <| .last rfl

theorem rxStart_microStepsEnd : MicroStepsEnd s rest 4 .rxStart := by
  by_cases hr : s.rx.run = true
  · exact .last ((if_pos hr).trans (if_pos hr).symm)
  · exact .goesOn .rxStartS2 s (fun _ => if_neg hr) <|
      .goesOn .rxStartS3 (rxStartRem s) (fun _ => rfl) <|
      .goesOn .rxStartS4 (rxStartTail (rxStartRem s)) (fun _ => rfl) <| .last (if_neg hr).symm

theorem rxAvail_microStepsEnd : MicroStepsEnd s rest 2 .rxAvail :=
  .goesOn (.rxAvailS2 s.rx.rem) s (fun _ => rfl) <| .last rfl

theorem rxRead_microStepsEnd : MicroStepsEnd s rest 2 .rxRead :=
  .loads (u := .rx) (i := s.rx.tail.toNat) (s := s) (q := .idle)
    (k := fun v => rxReadAdvance s.rx.tail v (s.standing .idle rest)) (.rxReadS2 s.rx.tail) fun _ => .last rfl

theorem ledUpdate_microStepsEnd : MicroStepsEnd s rest 5 .ledUpdate := by
  by_cases hu : ledUpdateStarts s = true
  · exact .goesOn .ledUpdateS2 s (fun _ => if_pos hu) <|
      .goesOn .ledUpdateS3 (ledUpdateFlag s) (fun _ => rfl) <|
      .goesOn .ledUpdateS4 (ledUpdateArm (ledUpdateFlag s)) (fun _ => rfl) <|
      .goesOn .ledUpdateS5 (ledUpdateGen (ledUpdateArm (ledUpdateFlag s))) (fun _ => rfl) <| .last (if_pos hu).symm
  · exact .last ((if_neg hu).trans (if_neg hu).symm)

end

/-! ### The two operations that fill a part of the encode buffer -/

/-- The micro-step that stores `code j` at index `base + j`; `HOST` then stands at `pos (j + 1)`, or returns after the last of `total`. -/
def encoderMicro (pos : Nat → HostPos) (code : Nat → Byte) (base total j : Nat) (s : State) : Result :=
  andThen (storeByte .led (base + j) (code j) s) fun t =>
    if j + 1 < total then goOn (pos (j + 1)) t else answered .ok 0#16 (t.setHost .idle)

theorem encoderMicro_standing {pos : Nat → HostPos} {code : Nat → Byte} {base total j : Nat} {s : State}
    (hi : base + j < s.cfg.frameBytes) (p : HostPos) (l : List Turn) :
    encoderMicro pos code base total j (s.standing p l) =
      if j + 1 < total then .next ((s.setMem .led (s.led.enc.write (base + j) (code j))).standing (pos (j + 1)) l)
      else answered .ok 0#16 ((s.setMem .led (s.led.enc.write (base + j) (code j))).standing .idle l) := by
  have hsize : base + j < memSize s.cfg .led := hi
  simp only [encoderMicro, storeByte_standing, hsize, if_true, andThen_next]
  rfl

/-- From the `j`-th store on, with `m + 1` stores to make, the codes left are stored in as many micro-steps. -/
theorem encoder_endsWithin {pos : Nat → HostPos} {code : Nat → Byte} {base total : Nat} {cfg : Config} (rest : List Turn)
    (hpos : ∀ j, pos j ≠ .idle)
    (hmicro : ∀ j s, j < total → s.cfg = cfg → hostMicro (pos j) s = encoderMicro pos code base total j s)
    (hsize : base + total ≤ cfg.frameBytes) (m : Nat) :
    ∀ (j : Nat) (s : State) (p : HostPos), j + (m + 1) = total → s.cfg = cfg →
      EndsWithin (m + 1) rest (fun l => encoderMicro pos code base total j (s.standing p l))
        (answered .ok 0#16 (ledStoreRun (base + j) ((List.range' j (m + 1)).map code) (s.standing .idle rest))) := by
  induction m with
  | zero =>
    intro j s p hj hc
    have hlast : ¬ j + 1 < total := by omega
    exact .last ((encoderMicro_standing (by rw [hc]; omega) p rest).trans (if_neg hlast))
  | succ m ih =>
    intro j s p hj hc
    have hnext : j + 1 < total := by omega
    exact .goesOn (pos (j + 1)) (s.setMem .led (s.led.enc.write (base + j) (code j)))
      (fun l => (encoderMicro_standing (by rw [hc]; omega) p l).trans (if_pos hnext))
      (.congr (fun l => hmicro (j + 1) _ hnext hc) (ih (j + 1) _ _ (by omega) hc)) (hpos _)

theorem ledClearMicro_eq {i : Nat} {s : State} (hi : i < s.cfg.frameBytes) :
    ledClearMicro i s = encoderMicro .ledClearAt (fun _ => s.cfg.code0) 0 s.cfg.frameBytes i s := by
  have hsize : i < memSize s.cfg .led := hi
  simp only [ledClearMicro, ledClearStore, encoderMicro, Nat.zero_add, storeByte_eq, hi, hsize, if_true, andThen_next]

theorem ledWriteMicro_eq (idx : BitVec 16) (c : Colour) (b : Nat) (s : State) :
    ledWriteMicro idx c b s = encoderMicro (.ledWriteAt idx c) (colourCode s.cfg c) (24 * idx.toNat) 24 b s := rfl

section
variable (s : State) (rest : List Turn)

theorem ledClear_microStepsEnd : MicroStepsEnd s rest (max 24 s.cfg.frameBytes) .ledClear := by
  cases hf : s.cfg.frameBytes with
  | zero =>
    have hcfg : (s.standing .idle rest).cfg.frameBytes = 0 := hf
    refine EndsWithin.mono (n := 1) (.last ?_) (by omega)
    simp only [hostBegin, ledClearMicro, exec, execLedClear, hcfg, Nat.lt_irrefl, if_false, List.replicate_zero]
    rfl
  | succ m =>
    have hmicro : ∀ j (t : State), j < m + 1 → t.cfg = s.cfg →
        ledClearMicro j t = encoderMicro .ledClearAt (fun _ => s.cfg.code0) 0 (m + 1) j t := fun j t hj hc => by
      rw [ledClearMicro_eq (by rw [hc, hf]; exact hj), hc, hf]
    have hends := encoder_endsWithin (pos := .ledClearAt) rest (fun _ => nofun) hmicro (by omega) m 0 s .idle (by omega) rfl
    have hcodes : (List.range' 0 (m + 1)).map (fun _ => s.cfg.code0) = List.replicate s.cfg.frameBytes s.cfg.code0 := by
      rw [List.map_const', List.length_range', hf]
    rw [hcodes] at hends
    exact EndsWithin.mono (.congr (fun l => hmicro 0 (s.standing .idle l) (Nat.succ_pos m) rfl) hends) (by omega)

theorem ledWrite_microStepsEnd (idx : BitVec 16) (c : Colour) : MicroStepsEnd s rest 24 (.ledWrite idx c) := by
  by_cases hi : idx.toNat < s.cfg.stripLength
  · have hsize : 24 * idx.toNat + 24 ≤ s.cfg.frameBytes := by unfold Config.frameBytes; omega
    have hends := encoder_endsWithin (pos := .ledWriteAt idx c) (code := colourCode s.cfg c) (total := 24) rest
      (fun _ => nofun) (fun j t _ hc => by rw [hostMicro, ledWriteMicro_eq, hc]) hsize 23 0 s .idle rfl rfl
    have hexec : exec (.ledWrite idx c) (s.standing .idle rest) = answered .ok 0#16
        (ledStoreRun (24 * idx.toNat + 0) ((List.range' 0 24).map (colourCode s.cfg c)) (s.standing .idle rest)) := if_pos hi
    rw [MicroStepsEnd, hexec]
    exact .congr (fun _ => if_pos hi) hends
  · exact .last ((if_neg hi).trans (if_neg hi).symm)

end

/-- Every operation ends as the whole one does, within the number of micro-steps the longest have: `LED.WRITE` or `LED.CLEAR`. -/
theorem microStepsEnd (s : State) (rest : List Turn) (i : Instr) : MicroStepsEnd s rest (max 24 s.cfg.frameBytes) i := by
  have h24 : 24 ≤ max 24 s.cfg.frameBytes := Nat.le_max_left _ _
  cases i with
  | rbPush b => exact (rbPush_microStepsEnd s rest b).mono (by omega)
  | rbPop => exact (rbPop_microStepsEnd s rest).mono (by omega)
  | txEnq b => exact (txEnq_microStepsEnd s rest b).mono (by omega)
  | txStart => exact (txStart_microStepsEnd s rest).mono (by omega)
  | rxStart => exact (rxStart_microStepsEnd s rest).mono (by omega)
  | rxAvail => exact (rxAvail_microStepsEnd s rest).mono (by omega)
  | rxRead => exact (rxRead_microStepsEnd s rest).mono (by omega)
  | ledClear => exact ledClear_microStepsEnd s rest
  | ledWrite idx c => exact (ledWrite_microStepsEnd s rest idx c).mono h24
  | ledUpdate => exact (ledUpdate_microStepsEnd s rest).mono (by omega)
  | rbAvail | rbIsEmpty | rbIsFull | txEvt | rxStop | ledEvt =>
    exact EndsWithin.mono (n := 1) (.last rfl) (by omega)

/-! ### A command of the program -/

/-- `HOST`, idle with a word to present, runs its operation whole when it is its turn for one. -/
theorem hostOpTurn_idle {s : State} {w : Cmd} {ws : List Cmd} (h : s.host = .idle) (hp : s.program = w :: ws) :
    hostOpTurn s = present w (s.setProgram ws) := by simp [hostOpTurn, h, hp]

theorem setProgram_setSched_of_idle {s : State} (hidle : s.host = .idle) (ws : List Cmd) (l : List Turn) :
    (s.setSched l).setProgram ws = (s.setProgram ws).standing .idle l := by
  rw [← hidle]; rfl

section
variable {s : State} {w : Cmd} {ws : List Cmd} {l : List Turn} (hidle : s.host = .idle) (hprog : s.program = w :: ws)
include hidle hprog

theorem step_host_idle : step (s.setSched (.host :: l)) = presentFirst w ((s.setProgram ws).standing .idle l) :=
  calc step (s.setSched (.host :: l))
      = hostTurn (s.setSched l) := step_turn (s := s.setSched (.host :: l)) rfl
    _ = presentFirst w ((s.setSched l).setProgram ws) := hostTurn_idle hidle hprog
    _ = _ := by rw [setProgram_setSched_of_idle hidle]

theorem step_hostOp_idle : step (s.setSched (.hostOp :: l)) = present w ((s.setProgram ws).standing .idle l) :=
  calc step (s.setSched (.hostOp :: l))
      = hostOpTurn (s.setSched l) := step_turn (s := s.setSched (.hostOp :: l)) rfl
    _ = present w ((s.setSched l).setProgram ws) := hostOpTurn_idle hidle hprog
    _ = _ := by rw [setProgram_setSched_of_idle hidle]

end

/-- A command word ends as it does whole: with its operation, or, `Illegal`, with the answer of its only step (R101). -/
theorem presentFirst_endsWithin (w : Cmd) (s : State) (rest : List Turn) :
    EndsWithin (max 24 s.cfg.frameBytes) rest (fun l => presentFirst w (s.standing .idle l)) (present w (s.standing .idle rest)) := by
  have hcfg : ∀ l, (s.standing .idle l).cfg = s.cfg := fun _ => rfl
  simp only [presentFirst, present, hcfg]
  cases decode s.cfg w with
  | instr i => exact microStepsEnd s rest i
  | illegal why => exact EndsWithin.mono (n := 1) (.last rfl) (by omega)

end Sys2Proof.Machine

namespace Sys2Proof.Proofs
open Sys2Proof.Machine

/-- Settles O11: the first turn takes the first micro-step of the word, and `presentFirst_endsWithin` counts the turns after it. -/
theorem microStepsMakeTheOperation : Obligations.MicroStepsMakeTheOperation := by
  intro s w ws rest hidle hprog
  obtain ⟨k, hk, hrun⟩ := presentFirst_endsWithin w (s.setProgram ws) rest
  refine ⟨k, hk, ?_⟩
  rw [core_run_eq, runSteps, List.replicate_succ, List.cons_append, step_host_idle hidle hprog, step_hostOp_idle hidle hprog]
  exact hrun

end Sys2Proof.Proofs
end

section
/-! SUPPORT. Where the machine stops (R12, R129, R163): each agent's turn from a state that meets the invariant. -/

namespace Sys2Proof.Machine

/-- `r`, answered in `s`, goes on, or stops where the spec gives no effect: U1, U3. -/
def StopsAsSpecified (s : State) : Result → Prop
  | .next _ => True
  | .fault f => f = .popEmpty ∧ s.rb.head = s.rb.tail
  | .refused q => q = .rxStartWhileRunning ∧ s.rx.run = true

section
variable {s : State}

theorem stopsAsSpecified_rxStart (h : s.rx.run = true) : StopsAsSpecified s (.refused .rxStartWhileRunning) := ⟨rfl, h⟩

/-- A choice between two answers. -/
theorem stopsAsSpecified_ite {c : Prop} [Decidable c] {a b : Result} (ha : c → StopsAsSpecified s a)
    (hb : ¬ c → StopsAsSpecified s b) : StopsAsSpecified s (if c then a else b) := by
  split
  · exact ha ‹_›
  · exact hb ‹_›

/-- A load inside the buffer stops only where what takes the byte does. -/
theorem stopsAsSpecified_withByte {u : MemId} {i : Nat} {t : State} {k : Byte → Result} (hi : i < memSize t.cfg u)
    (hk : ∀ v, StopsAsSpecified s (k v)) : StopsAsSpecified s (withByte u i t k) := by
  rw [withByte_inside k hi]
  exact hk _

/-- A store inside the buffer stops only where what follows it does. -/
theorem stopsAsSpecified_store {u : MemId} {i : Nat} {v : Byte} {t : State} {k : State → Result} (hi : i < memSize t.cfg u)
    (hk : ∀ t', StopsAsSpecified s (k t')) : StopsAsSpecified s (andThen (storeByte u i v t) k) := by
  rw [storeByte_inside v hi]
  exact hk _

/-! ### The operations, whole and from their first micro-step -/

theorem ledIndex_lt {cfg : Config} {idx b : Nat} (hi : idx < cfg.stripLength) (hb : b < 24) :
    ledIndex idx b < cfg.frameBytes := by
  unfold ledIndex Config.frameBytes
  omega

theorem ledClearMicro_stops (i : Nat) (t : State) : StopsAsSpecified s (ledClearMicro i t) :=
  stopsAsSpecified_ite
    (fun hi => stopsAsSpecified_store hi fun _ => stopsAsSpecified_ite (fun _ => trivial) (fun _ => trivial))
    (fun _ => trivial)

theorem ledWriteMicro_stops {idx : BitVec 16} (c : Colour) {b : Nat} {t : State} (hi : idx.toNat < t.cfg.stripLength)
    (hb : b < 24) : StopsAsSpecified s (ledWriteMicro idx c b t) :=
  stopsAsSpecified_store (ledIndex_lt hi hb) fun _ => stopsAsSpecified_ite (fun _ => trivial) (fun _ => trivial)

theorem exec_stops (hrb : RbOk s) (htx : TxOk s) (hrx : RxOk s) (i : Instr) : StopsAsSpecified s (exec i s) := by
  obtain ⟨hrbHead, hrbTail, -⟩ := hrb
  obtain ⟨htxHead, -⟩ := htx
  obtain ⟨hrxTail, -⟩ := hrx
  cases i with
  | rbPush b =>
    show StopsAsSpecified s (execRbPush b s)
    by_cases hf : inc s.cfg.nRb s.rb.head.toNat = s.rb.tail.toNat
    · rw [execRbPush_full b hf]; trivial
    · rw [execRbPush_free b hf hrbHead]; trivial
  | rbPop =>
    show StopsAsSpecified s (execRbPop s)
    by_cases he : s.rb.head = s.rb.tail
    · rw [execRbPop_empty he]; exact ⟨rfl, he⟩
    · rw [execRbPop_some he hrbTail]; trivial
  | txEnq b =>
    show StopsAsSpecified s (execTxEnq b s)
    by_cases hf : inc s.cfg.nTx s.tx.head.toNat = s.tx.tail.toNat
    · rw [execTxEnq_full b hf]; trivial
    · rw [execTxEnq_free b hf htxHead]; trivial
  | txEvt => exact stopsAsSpecified_ite (fun _ => trivial) (fun _ => trivial)
  | rxStart => exact stopsAsSpecified_ite stopsAsSpecified_rxStart (fun _ => trivial)
  | rxRead => show StopsAsSpecified s (execRxRead s); rw [execRxRead_eq hrxTail]; trivial
  | ledWrite idx c => exact stopsAsSpecified_ite (fun _ => trivial) (fun _ => trivial)
  | ledUpdate => exact stopsAsSpecified_ite (fun _ => trivial) (fun _ => trivial)
  | ledEvt => exact stopsAsSpecified_ite (fun _ => trivial) (fun _ => trivial)
  | rbAvail | rbIsEmpty | rbIsFull | txStart | rxStop | rxAvail | ledClear => trivial

theorem hostBegin_stops (hrx : RxOk s) (i : Instr) : StopsAsSpecified s (hostBegin i s) := by
  obtain ⟨hrxTail, -⟩ := hrx
  cases i with
  | rbPush b => simp only [hostBegin]; cases rbPushSlot s <;> trivial
  | rbPop =>
    by_cases he : s.rb.head = s.rb.tail
    · have hslot : rbPopSlot s = none := if_pos ((isEmpty_iff _ _).2 he)
      simp only [hostBegin, hslot]
      exact ⟨rfl, he⟩
    · have hslot : rbPopSlot s = some s.rb.tail := if_neg fun h => he ((isEmpty_iff _ _).1 h)
      simp only [hostBegin, hslot]
      trivial
  | txEnq b => simp only [hostBegin]; cases txEnqSlot s <;> trivial
  | txStart => exact stopsAsSpecified_ite (fun _ => trivial) (fun _ => trivial)
  | txEvt => exact stopsAsSpecified_ite (fun _ => trivial) (fun _ => trivial)
  | rxStart => exact stopsAsSpecified_ite stopsAsSpecified_rxStart (fun _ => trivial)
  | rxRead =>
    simp only [hostBegin, rxReadLoad]
    exact stopsAsSpecified_withByte (u := .rx) hrxTail fun _ => trivial
  | ledClear => exact ledClearMicro_stops 0 s
  | ledWrite idx c => exact stopsAsSpecified_ite (fun hi => ledWriteMicro_stops c hi (by decide)) (fun _ => trivial)
  | ledUpdate => exact stopsAsSpecified_ite (fun _ => trivial) (fun _ => trivial)
  | ledEvt => exact stopsAsSpecified_ite (fun _ => trivial) (fun _ => trivial)
  | rbAvail | rbIsEmpty | rbIsFull | rxStop | rxAvail => trivial

/-! ### The micro-steps inside an operation -/

theorem hostMicro_stops (hrb : RbOk s) (htx : TxOk s) (hok : hostOk s = true) : StopsAsSpecified s (hostMicro s.host s) := by
  obtain ⟨hrbHead, hrbTail, -⟩ := hrb
  obtain ⟨htxHead, -⟩ := htx
  unfold hostOk at hok
  cases hp : s.host with
  | rbPushS2 h b => 
    simp only [hp, Bool.and_eq_true, beq_iff_eq] at hok
    obtain ⟨rfl, -⟩ := hok
    exact stopsAsSpecified_store (u := .rb) hrbHead fun _ => trivial
  | rbPopS2 t => 
    simp only [hp, Bool.and_eq_true, beq_iff_eq] at hok
    obtain ⟨rfl, -⟩ := hok
    simp only [hostMicro, rbPopLoad]
    exact stopsAsSpecified_withByte (u := .rb) hrbTail fun _ => trivial
  | txEnqS2 h b => 
    simp only [hp, Bool.and_eq_true, beq_iff_eq] at hok
    obtain ⟨rfl, -⟩ := hok
    exact stopsAsSpecified_store (u := .tx) htxHead fun _ => trivial
  | ledWriteAt idx c b =>
    simp only [hp, Bool.and_eq_true, decide_eq_true_eq] at hok
    obtain ⟨hidx, hb⟩ := hok
    exact ledWriteMicro_stops c hidx hb
  | ledClearAt i => exact ledClearMicro_stops i s
  | txStartS2 => simp only [hostMicro]; cases txStartRun s <;> trivial
  | _ => trivial

/-! ### The engines -/

/-- While a transfer of `TX` is active `HOST` is outside s3 to s5 of `TX.START`: they begin with none (R147). -/
theorem outsideTxStart_of_active (hok : hostOk s = true) (ha : s.tx.active = true) : outsideTxStart s.host = true := by
  unfold hostOk at hok
  cases hp : s.host with
  | txStartS4 t r => simp [hp, txAtRest, ha] at hok
  | txStartS5 => simp [hp, txAtRest, ha] at hok
  | _ => rfl

/-- While the `LED` engine is enabled `HOST` is outside s2 to s5 of `LED.UPDATE`: it is enabled in the last of them (R189). -/
theorem outsideLedUpdate_of_xferEn (hok : hostOk s = true) (hx : s.led.xferEn = true) : outsideLedUpdate s.host = true := by
  unfold hostOk at hok
  cases hp : s.host with
  | ledUpdateS3 => simp [hp, ledClaimed, hx] at hok
  | ledUpdateS4 => simp [hp, ledClaimed, hx] at hok
  | ledUpdateS5 => simp [hp, ledClaimed, hx] at hok
  | _ => rfl

theorem xtxStep_stops (h : Inv s) : StopsAsSpecified s (xtxStep s) := by
  obtain ⟨-, -, -, -, -, hflags, -, hok⟩ := h
  refine stopsAsSpecified_ite (fun he => ?_) (fun _ => trivial)
  simp only [xtxEnabled, Bool.and_eq_true, decide_eq_true_eq] at he
  obtain ⟨hactive, hcnt⟩ := he
  obtain ⟨-, -, -, hrun⟩ := hflags (outsideTxStart_of_active hok hactive)
  obtain ⟨hfits, -⟩ := hrun hactive
  have hsrc : s.tx.src.toNat < s.cfg.nTx := by omega
  exact stopsAsSpecified_withByte (u := .tx) hsrc fun _ => trivial

theorem xrxStep_stops (h : RxOk s) : StopsAsSpecified s (xrxStep s) := by
  obtain ⟨-, hrem, hremMax, -⟩ := h
  have hindex : rxWriteIndex s.cfg.nRx s.rx.rem < s.cfg.nRx := by unfold rxWriteIndex; omega
  cases hr : s.rx.run with
  | false => rw [xrxStep_disabled (.inl hr)]; trivial
  | true =>
    cases hi : s.rxIn with
    | nil => rw [xrxStep_disabled (.inr hi)]; trivial
    | cons b bs => rw [xrxStep_enabled hr hi hindex]; trivial

theorem xledStep_stops (h : Inv s) : StopsAsSpecified s (xledStep s) := by
  obtain ⟨-, -, -, -, -, -, hflags, hok⟩ := h
  refine stopsAsSpecified_ite (fun he => ?_) (fun _ => trivial)
  simp only [xledEnabled, Bool.and_eq_true, decide_eq_true_eq] at he
  obtain ⟨⟨hxfer, -⟩, hcnt⟩ := he
  obtain ⟨-, hidle, hinflight, -⟩ := hflags (outsideLedUpdate_of_xferEn hok hxfer)
  have hclaimed : s.led.inflight = true := by
    by_contra hc
    obtain ⟨-, -, hoff, -⟩ := hidle (Bool.eq_false_of_not_eq_true hc)
    simp [hoff] at hxfer
  obtain ⟨-, -, hframe⟩ := hinflight hclaimed
  have hpos : s.led.pos.toNat < s.cfg.frameBytes := by omega
  exact stopsAsSpecified_withByte (u := .led) hpos fun _ => trivial

/-! ### The turns -/

theorem present_stops (hrb : RbOk s) (htx : TxOk s) (hrx : RxOk s) (w : Cmd) : StopsAsSpecified s (present w s) := by
  unfold present
  cases decode s.cfg w with
  | instr i => exact exec_stops hrb htx hrx i
  | illegal why => trivial

theorem presentFirst_stops (hrx : RxOk s) (w : Cmd) : StopsAsSpecified s (presentFirst w s) := by
  unfold presentFirst
  cases decode s.cfg w with
  | instr i => exact hostBegin_stops hrx i
  | illegal why => trivial

theorem hostTurn_stops (h : Inv s) : StopsAsSpecified s (hostTurn s) := by
  obtain ⟨-, hrb, htx, hrx, -, -, -, hok⟩ := h
  by_cases hidle : s.host = .idle
  · cases hp : s.program with
    | nil => simp only [hostTurn, hidle, hp]; trivial
    | cons w ws => rw [hostTurn_idle hidle hp]; exact presentFirst_stops (s := s.setProgram ws) hrx w
  · rw [hostTurn_inside hidle]; exact hostMicro_stops hrb htx hok

theorem hostOpTurn_stops (hrb : RbOk s) (htx : TxOk s) (hrx : RxOk s) : StopsAsSpecified s (hostOpTurn s) := by
  by_cases hidle : s.host = .idle
  · cases hp : s.program with
    | nil => simp only [hostOpTurn, hidle, hp]; trivial
    | cons w ws => rw [hostOpTurn_idle hidle hp]; exact present_stops (s := s.setProgram ws) hrb htx hrx w
  · rw [hostOpTurn_inside hidle]; trivial

theorem takeTurn_stops (h : Inv s) (turn : Turn) : StopsAsSpecified s (takeTurn turn s) := by
  obtain ⟨-, hrb, htx, hrx, -⟩ := id h
  cases turn with
  | host => exact hostTurn_stops h
  | hostOp => exact hostOpTurn_stops hrb htx hrx
  | evt e => exact present_stops hrb htx hrx (eventWord e)
  | xtx => exact xtxStep_stops h
  | xrx => exact xrxStep_stops hrx
  | xled => exact xledStep_stops h
  | supply b => trivial
  | reset => trivial

theorem step_stops (h : Inv s) : StopsAsSpecified s (step s) := by
  cases hs : s.sched with
  | nil => rw [step_empty hs]; trivial
  | cons turn rest => rw [step_turn hs]; exact takeTurn_stops (s := s.setSched rest) h turn

end

end Sys2Proof.Machine

namespace Sys2Proof.Proofs
open Sys2Proof.Machine

/-- Settles O57, by the agent whose turn it is (`takeTurn_stops`). -/
theorem stepsStopOnlyWhereTheSpecIsUndefined : Obligations.StepsStopOnlyWhereTheSpecIsUndefined := by
  intro s hinv
  have hstops := step_stops hinv
  exact ⟨fun f hf => by rwa [hf] at hstops, fun q hq => by rwa [hq] at hstops⟩

end Sys2Proof.Proofs
end

section
/-! SUPPORT. What holds of the state an answer goes on to, and the ranges of the values a step computes. -/

namespace Sys2Proof.Machine

/-! ### What holds of the state an answer goes on to -/

/-- If `r` goes on, it does so to a state with `P`. -/
def LeadsTo (P : State → Prop) : Result → Prop
  | .next t => P t
  | .fault _ => True
  | .refused _ => True

section
variable {P : State → Prop}

theorem LeadsTo.of_next {r : Result} {t : State} (h : LeadsTo P r) (hr : r = .next t) : P t := by rwa [hr] at h

theorem leadsTo_ite {c : Prop} [Decidable c] {a b : Result} (ha : c → LeadsTo P a) (hb : ¬ c → LeadsTo P b) :
    LeadsTo P (if c then a else b) := by
  split
  · exact ha ‹_›
  · exact hb ‹_›

/-- A load that goes on was inside the buffer. -/
theorem leadsTo_withByte {u : MemId} {i : Nat} {s : State} {k : Byte → Result}
    (hk : ∀ v, i < memSize s.cfg u → LeadsTo P (k v)) : LeadsTo P (withByte u i s k) :=
  leadsTo_ite (hk _) fun _ => trivial

/-- A store that goes on was inside the buffer, and what follows it takes the state with the byte stored. -/
theorem leadsTo_store {u : MemId} {i : Nat} {v : Byte} {s : State} {k : State → Result}
    (hk : i < memSize s.cfg u → LeadsTo P (k (s.setMem u ((s.mem u).write i v)))) :
    LeadsTo P (andThen (storeByte u i v s) k) := by
  rw [storeByte_eq]
  split
  · exact hk ‹_›
  · trivial

end

/-! ### Sizes and runs -/

theorem frameBytes_bounds {cfg : Config} (h : cfg.Valid) : 1 ≤ cfg.frameBytes ∧ cfg.frameBytes < 2097152 := by
  obtain ⟨-, -, -, hstrip, -⟩ := h
  unfold Config.frameBytes
  omega

/-- `N` as a value of `RX.rem` is in range. -/
theorem rxFullCount {cfg : Config} (h : cfg.Valid) :
    1 ≤ (BitVec.ofNat 16 cfg.nRx).toNat ∧ (BitVec.ofNat 16 cfg.nRx).toNat ≤ cfg.nRx := by
  obtain ⟨-, -, ⟨hn2, hn⟩, -⟩ := h
  rw [cursor_toNat (by omega)]
  omega

/-- The run `TX.START` finds, in its registers: not empty, shorter than the buffer, and not past its end (R126). -/
theorem runCursor_bounds {n : Nat} {h t r : Cursor} (hn : n ≤ 65535) (hh : h.toNat < n) (ht : t.toNat < n)
    (hd : cursorDist n h.toNat t.toNat ≠ 0) (hr : r = BitVec.ofNat 16 (run n h.toNat t.toNat)) :
    1 ≤ r.toNat ∧ r.toNat < n ∧ t.toNat + r.toNat ≤ n := by
  have hdist := cursorDist_lt hh ht
  have hle := run_le_cursorDist n h.toNat t.toNat
  have hend := add_run_le h.toNat ht
  have hpos : 1 ≤ run n h.toNat t.toNat := by unfold run; omega
  rw [hr, cursor_toNat (by omega)]
  omega

/-- The run ends at the write index, or, when the resident bytes wrap, at index 0 (R126). -/
theorem runEnd_eq {n h t : Nat} (hh : h < n) (ht : t < n) : (t + run n h t) % n = if t ≤ h then h else 0 := by
  unfold run cursorDist
  split
  · have hend : t + min (h - t) (n - t) = h := by omega
    rw [hend, Nat.mod_eq_of_lt hh]
  · have hend : t + min (h + n - t) (n - t) = n := by omega
    rw [hend, Nat.mod_self]

/-- Moving the read index past the run, as `TX.START` does, does not make the buffer full. -/
theorem inc_ne_runEnd {n h t : Nat} (hh : h < n) (ht : t < n) (hd : cursorDist n h t ≠ 0) :
    inc n h ≠ (t + run n h t) % n := by
  rw [runEnd_eq hh ht]
  unfold cursorDist at hd
  unfold inc
  by_cases hle : t ≤ h
  · rw [if_pos hle] at hd ⊢
    split <;> omega
  · rw [if_neg hle]
    split <;> omega

theorem incCursor_lt {n : Nat} {c : Cursor} (hn : n ≤ 65535) (hc : c.toNat < n) : (incCursor n c).toNat < n := by
  rw [incCursor_toNat hn hc]
  exact inc_lt hc

/-! ### What the slots and the run a first micro-step finds say of the cursors -/

section
variable {s : State}

theorem rbPushSlot_eq_some {c : Cursor} (h : rbPushSlot s = some c) :
    c = s.rb.head ∧ isFull s.cfg.nRb s.rb.head s.rb.tail = false := by
  unfold rbPushSlot at h
  split at h
  · cases h
  · exact ⟨(Option.some.inj h).symm, Bool.eq_false_of_not_eq_true ‹_›⟩

theorem rbPopSlot_eq_some {c : Cursor} (h : rbPopSlot s = some c) :
    c = s.rb.tail ∧ isEmpty s.rb.head s.rb.tail = false := by
  unfold rbPopSlot at h
  split at h
  · cases h
  · exact ⟨(Option.some.inj h).symm, Bool.eq_false_of_not_eq_true ‹_›⟩

theorem txEnqSlot_eq_some {c : Cursor} (h : txEnqSlot s = some c) :
    c = s.tx.head ∧ isFull s.cfg.nTx s.tx.head s.tx.tail = false := by
  unfold txEnqSlot at h
  split at h
  · cases h
  · exact ⟨(Option.some.inj h).symm, Bool.eq_false_of_not_eq_true ‹_›⟩

/-- The run starts at `TX.tail` and holds a byte. -/
theorem txStartRun_eq_some {t r : Cursor} (h : txStartRun s = some (t, r)) :
    t = s.tx.tail ∧ r = BitVec.ofNat 16 (run s.cfg.nTx s.tx.head.toNat s.tx.tail.toNat) ∧
      cursorDist s.cfg.nTx s.tx.head.toNat s.tx.tail.toNat ≠ 0 := by
  unfold txStartRun at h
  split at h
  · cases h
  · cases h
    exact ⟨rfl, rfl, ‹_›⟩

end

end Sys2Proof.Machine
end

section
/-! SUPPORT. `HOST` keeps the invariant with each of its micro-steps (R24, R29, R33, R40, R147, R163, R189). -/

namespace Sys2Proof.Machine

/-! ### The invariant with `HOST` at a given position -/

section
variable {s : State}

theorem inv_setHost {p : HostPos} :
    Inv (s.setHost p) ↔ s.cfg.Valid ∧ RbOk s ∧ TxOk s ∧ RxOk s ∧ LedOk s ∧ (outsideTxStart p = true → TxFlagsOk s) ∧
      (outsideLedUpdate p = true → LedFlagsOk s) ∧ hostOk (s.setHost p) = true := Iff.rfl

/-- Only `HOST` moves, from a position outside the micro-steps in which flags are under way. -/
theorem Inv.moveHost {p q : HostPos} (h : Inv (s.setHost p)) (hok : hostOk (s.setHost q) = true)
    (hout : outsideTxStart p = true := by rfl) (hled : outsideLedUpdate p = true := by rfl) : Inv (s.setHost q) := by
  obtain ⟨hcfg, hrb, htx, hrx, hledOk, htxf, hledf, -⟩ := inv_setHost.1 h
  exact inv_setHost.2 ⟨hcfg, hrb, htx, hrx, hledOk, fun _ => htxf hout, fun _ => hledf hled, hok⟩

/-- A response touches nothing the invariant speaks of. -/
theorem inv_answer {st : Status} {v : BitVec 16} : Inv (s.answer st v) ↔ Inv s := Iff.rfl

theorem hostOk_rbPushS2 {c : Cursor} {b : Byte} :
    hostOk (s.setHost (.rbPushS2 c b)) = true ↔ c = s.rb.head ∧ isFull s.cfg.nRb s.rb.head s.rb.tail = false := by
  simp [hostOk]

theorem hostOk_rbPushS3 {c : Cursor} :
    hostOk (s.setHost (.rbPushS3 c)) = true ↔ c = s.rb.head ∧ isFull s.cfg.nRb s.rb.head s.rb.tail = false := by
  simp [hostOk]

theorem hostOk_rbPopS2 {c : Cursor} :
    hostOk (s.setHost (.rbPopS2 c)) = true ↔ c = s.rb.tail ∧ isEmpty s.rb.head s.rb.tail = false := by
  simp [hostOk]

theorem hostOk_rbPopS3 {c : Cursor} {v : Byte} :
    hostOk (s.setHost (.rbPopS3 c v)) = true ↔ c = s.rb.tail ∧ isEmpty s.rb.head s.rb.tail = false := by
  simp [hostOk]

theorem hostOk_txEnqS2 {c : Cursor} {b : Byte} :
    hostOk (s.setHost (.txEnqS2 c b)) = true ↔ c = s.tx.head ∧ isFull s.cfg.nTx s.tx.head s.tx.tail = false := by
  simp [hostOk]

theorem hostOk_txEnqS3 {c : Cursor} :
    hostOk (s.setHost (.txEnqS3 c)) = true ↔ c = s.tx.head ∧ isFull s.cfg.nTx s.tx.head s.tx.tail = false := by
  simp [hostOk]

theorem txAtRest_iff : txAtRest s = true ↔ s.tx.active = false ∧ s.tx.tc = false := by
  simp [txAtRest]

theorem hostOk_txStartS3 {t r : Cursor} :
    hostOk (s.setHost (.txStartS3 t r)) = true ↔ txAtRest s = true ∧ txStartRun s = some (t, r) := by
  simp only [hostOk, State.setHost_host, Bool.and_eq_true, beq_iff_eq]
  exact Iff.rfl

theorem hostOk_txStartS4 {t r : Cursor} :
    hostOk (s.setHost (.txStartS4 t r)) = true ↔
      txAtRest s = true ∧ txStartRun s = some (t, r) ∧ s.tx.src = t ∧ s.tx.cnt = r := by
  simp only [hostOk, State.setHost_host, Bool.and_eq_true, beq_iff_eq, and_assoc]
  exact Iff.rfl

theorem hostOk_txStartS5 :
    hostOk (s.setHost .txStartS5) = true ↔
      txAtRest s = true ∧ 1 ≤ s.tx.cnt.toNat ∧ s.tx.src.toNat + s.tx.cnt.toNat ≤ s.cfg.nTx ∧
        (s.tx.src.toNat + s.tx.cnt.toNat) % s.cfg.nTx = s.tx.tail.toNat := by
  simp only [hostOk, State.setHost_host, Bool.and_eq_true, decide_eq_true_eq, and_assoc]
  exact Iff.rfl

theorem hostOk_rxStartS2 : hostOk (s.setHost .rxStartS2) = true ↔ s.rx.run = false := by
  simp [hostOk]

theorem hostOk_rxStartS3 :
    hostOk (s.setHost .rxStartS3) = true ↔ s.rx.run = false ∧ s.rx.rem = BitVec.ofNat 16 s.cfg.nRx := by
  simp [hostOk]

theorem hostOk_rxStartS4 :
    hostOk (s.setHost .rxStartS4) = true ↔
      s.rx.run = false ∧ s.rx.rem = BitVec.ofNat 16 s.cfg.nRx ∧ s.rx.tail = 0#16 := by
  simp [hostOk, and_assoc]

theorem hostOk_rxAvailS2 {m : Cursor} :
    hostOk (s.setHost (.rxAvailS2 m)) = true ↔ 1 ≤ m.toNat ∧ m.toNat ≤ s.cfg.nRx := by
  simp only [hostOk, State.setHost_host, Bool.and_eq_true, decide_eq_true_eq]
  exact Iff.rfl

theorem hostOk_rxReadS2 {t : Cursor} {v : Byte} : hostOk (s.setHost (.rxReadS2 t v)) = true ↔ t = s.rx.tail := by
  simp [hostOk]

theorem hostOk_ledClearAt {i : Nat} : hostOk (s.setHost (.ledClearAt i)) = true ↔ i < s.cfg.frameBytes := by
  simp only [hostOk, State.setHost_host, decide_eq_true_eq]
  exact Iff.rfl

theorem hostOk_ledWriteAt {idx : BitVec 16} {c : Colour} {b : Nat} :
    hostOk (s.setHost (.ledWriteAt idx c b)) = true ↔ idx.toNat < s.cfg.stripLength ∧ b < 24 := by
  simp only [hostOk, State.setHost_host, Bool.and_eq_true, decide_eq_true_eq]
  exact Iff.rfl

theorem ledClaimed_iff : ledClaimed s = true ↔ s.led.inflight = true ∧ s.led.tc = false ∧ s.led.xferEn = false := by
  simp [ledClaimed, and_assoc]

theorem hostOk_ledUpdateS2 : hostOk (s.setHost .ledUpdateS2) = true ↔ s.led.inflight = false := by
  simp [hostOk]

theorem hostOk_ledUpdateS3 :
    hostOk (s.setHost .ledUpdateS3) = true ↔ ledClaimed s = true ∧ s.led.genEn = false ∧ s.led.cnt = 0#21 := by
  simp only [hostOk, State.setHost_host, Bool.and_eq_true, Bool.not_eq_true', beq_iff_eq, and_assoc]
  exact Iff.rfl

theorem hostOk_ledUpdateS4 :
    hostOk (s.setHost .ledUpdateS4) = true ↔
      ledClaimed s = true ∧ s.led.genEn = false ∧ s.led.pos = 0#21 ∧ s.led.cnt.toNat = s.cfg.frameBytes := by
  simp only [hostOk, State.setHost_host, Bool.and_eq_true, Bool.not_eq_true', beq_iff_eq, decide_eq_true_eq, and_assoc]
  exact Iff.rfl

theorem hostOk_ledUpdateS5 :
    hostOk (s.setHost .ledUpdateS5) = true ↔
      ledClaimed s = true ∧ s.led.genEn = true ∧ s.led.pos = 0#21 ∧ s.led.cnt.toNat = s.cfg.frameBytes := by
  simp only [hostOk, State.setHost_host, Bool.and_eq_true, beq_iff_eq, decide_eq_true_eq, and_assoc]
  exact Iff.rfl

end

/-! ### The micro-steps of `HOST`, by the position it stands at -/

/-- `HOST`, standing at `p`, keeps the invariant with its next micro-step. -/
abbrev MicroStepKeepsInv (p : HostPos) : Prop := ∀ s : State, Inv (s.setHost p) → LeadsTo Inv (hostMicro p (s.setHost p))

theorem rbPushS2_keepsInv (c : Cursor) (b : Byte) : MicroStepKeepsInv (.rbPushS2 c b) := by
  intro s h
  obtain ⟨hcfg, ⟨hhead, htail, hmem⟩, htx, hrx, hled, htxf, hledf, hok⟩ := inv_setHost.1 h
  exact leadsTo_store fun hi => inv_setHost.2
    ⟨hcfg, ⟨hhead, htail, Memory.write_wf b hmem hi⟩, htx, hrx, hled, htxf, hledf, hok⟩

theorem rbPushS3_keepsInv (c : Cursor) : MicroStepKeepsInv (.rbPushS3 c) := by
  intro s h
  obtain ⟨hcfg, ⟨hhead, htail, hmem⟩, htx, hrx, hled, htxf, hledf, hok⟩ := inv_setHost.1 h
  obtain ⟨⟨-, hn⟩, -⟩ := id hcfg
  obtain ⟨rfl, -⟩ := hostOk_rbPushS3.1 hok
  exact inv_setHost.2 ⟨hcfg, ⟨incCursor_lt hn hhead, htail, hmem⟩, htx, hrx, hled, htxf, hledf, rfl⟩

theorem rbPopS2_keepsInv (c : Cursor) : MicroStepKeepsInv (.rbPopS2 c) := by
  intro s h
  simp only [hostMicro, rbPopLoad]
  exact leadsTo_withByte fun _ _ => h

theorem rbPopS3_keepsInv (c : Cursor) (v : Byte) : MicroStepKeepsInv (.rbPopS3 c v) := by
  intro s h
  obtain ⟨hcfg, ⟨hhead, htail, hmem⟩, htx, hrx, hled, htxf, hledf, hok⟩ := inv_setHost.1 h
  obtain ⟨⟨-, hn⟩, -⟩ := id hcfg
  obtain ⟨rfl, -⟩ := hostOk_rbPopS3.1 hok
  exact inv_setHost.2 ⟨hcfg, ⟨hhead, incCursor_lt hn htail, hmem⟩, htx, hrx, hled, htxf, hledf, rfl⟩

theorem txEnqS2_keepsInv (c : Cursor) (b : Byte) : MicroStepKeepsInv (.txEnqS2 c b) := by
  intro s h
  obtain ⟨hcfg, hrb, ⟨hhead, htail, hsrc, hcnt, hmem⟩, hrx, hled, htxf, hledf, hok⟩ := inv_setHost.1 h
  exact leadsTo_store fun hi => inv_setHost.2
    ⟨hcfg, hrb, ⟨hhead, htail, hsrc, hcnt, Memory.write_wf b hmem hi⟩, hrx, hled, htxf, hledf, hok⟩

theorem txEnqS3_keepsInv (c : Cursor) : MicroStepKeepsInv (.txEnqS3 c) := by
  intro s h
  obtain ⟨hcfg, hrb, ⟨hhead, htail, hsrc, hcnt, hmem⟩, hrx, hled, htxf, hledf, hok⟩ := inv_setHost.1 h
  obtain ⟨-, ⟨-, hn⟩, -⟩ := id hcfg
  obtain ⟨rfl, -⟩ := hostOk_txEnqS3.1 hok
  exact inv_setHost.2
    ⟨hcfg, hrb, ⟨incCursor_lt hn hhead, htail, hsrc, hcnt, hmem⟩, hrx, hled, htxf, hledf, rfl⟩

theorem txStartS2_keepsInv : MicroStepKeepsInv .txStartS2 := by
  intro s h
  obtain ⟨-, -, -, -, -, -, -, hrest⟩ := id h
  cases hrun : txStartRun (s.setHost .txStartS2) with
  | none =>
    simp only [hostMicro, hrun]
    exact inv_answer.2 (h.moveHost (q := .idle) rfl)
  | some tr =>
    simp only [hostMicro, hrun]
    exact h.moveHost (q := .txStartS3 tr.1 tr.2) (hostOk_txStartS3.2 ⟨hrest, hrun⟩)

theorem txStartS3_keepsInv (t r : Cursor) : MicroStepKeepsInv (.txStartS3 t r) := by
  intro s h
  obtain ⟨hcfg, hrb, ⟨hhead, htail, -, -, hmem⟩, hrx, hled, -, hledf, hok⟩ := inv_setHost.1 h
  obtain ⟨-, ⟨-, hn⟩, -⟩ := id hcfg
  obtain ⟨hrest, hrun⟩ := hostOk_txStartS3.1 hok
  obtain ⟨rfl, hr, hd⟩ := txStartRun_eq_some hrun
  obtain ⟨-, hlt, -⟩ := runCursor_bounds hn hhead htail hd hr
  exact inv_setHost.2 ⟨hcfg, hrb, ⟨hhead, htail, Nat.le_of_lt htail, hlt, hmem⟩, hrx, hled, nofun, hledf,
    hostOk_txStartS4.2 ⟨hrest, hrun, rfl, rfl⟩⟩

theorem txStartS4_keepsInv (t r : Cursor) : MicroStepKeepsInv (.txStartS4 t r) := by
  intro s h
  obtain ⟨hcfg, hrb, ⟨hhead, htail, hsrc, hcnt, hmem⟩, hrx, hled, -, hledf, hok⟩ := inv_setHost.1 h
  obtain ⟨-, ⟨hn2, hn⟩, -⟩ := id hcfg
  obtain ⟨hrest, hrun, rfl, rfl⟩ := hostOk_txStartS4.1 hok
  obtain ⟨hsrcEq, hr, hd⟩ := txStartRun_eq_some hrun
  obtain ⟨hpos, -, hend⟩ := runCursor_bounds hn hhead htail hd hr
  have hmod : (s.tx.src.toNat + s.tx.cnt.toNat) % s.cfg.nTx < s.cfg.nTx := Nat.mod_lt _ (by omega)
  have htail' : (BitVec.ofNat 16 ((s.tx.src.toNat + s.tx.cnt.toNat) % s.cfg.nTx)).toNat =
      (s.tx.src.toNat + s.tx.cnt.toNat) % s.cfg.nTx := cursor_toNat (by omega)
  exact inv_setHost.2 ⟨hcfg, hrb, ⟨hhead, htail'.trans_lt hmod, hsrc, hcnt, hmem⟩, hrx, hled, nofun, hledf,
    hostOk_txStartS5.2 ⟨hrest, hpos, hsrcEq ▸ hend, htail'.symm⟩⟩

theorem txStartS5_keepsInv : MicroStepKeepsInv .txStartS5 := by
  intro s h
  obtain ⟨hcfg, hrb, htx, hrx, hled, -, hledf, hok⟩ := inv_setHost.1 h
  obtain ⟨hrest, hpos, hend, htail⟩ := hostOk_txStartS5.1 hok
  obtain ⟨-, htc⟩ := txAtRest_iff.1 hrest
  have hflags : TxFlagsOk (s.setTx { s.tx with active := true }) :=
    ⟨fun hc => absurd hc (by simp [htc]), nofun, fun _ _ => hpos, fun _ => ⟨hend, htail⟩⟩
  exact inv_setHost.2 ⟨hcfg, hrb, htx, hrx, hled, fun _ => hflags, hledf, rfl⟩

theorem rxStartS2_keepsInv : MicroStepKeepsInv .rxStartS2 := by
  intro s h
  obtain ⟨hcfg, hrb, htx, ⟨htail, -, -, hmem⟩, hled, htxf, hledf, hok⟩ := inv_setHost.1 h
  exact inv_setHost.2 ⟨hcfg, hrb, htx, ⟨htail, (rxFullCount hcfg).1, (rxFullCount hcfg).2, hmem⟩, hled, htxf, hledf,
    hostOk_rxStartS3.2 ⟨hostOk_rxStartS2.1 hok, rfl⟩⟩

theorem rxStartS3_keepsInv : MicroStepKeepsInv .rxStartS3 := by
  intro s h
  obtain ⟨hcfg, hrb, htx, ⟨htail, hrem, hremMax, hmem⟩, hled, htxf, hledf, hok⟩ := inv_setHost.1 h
  obtain ⟨hrun, hfull⟩ := hostOk_rxStartS3.1 hok
  exact inv_setHost.2 ⟨hcfg, hrb, htx, ⟨Nat.zero_lt_of_lt htail, hrem, hremMax, hmem⟩, hled, htxf, hledf,
    hostOk_rxStartS4.2 ⟨hrun, hfull, rfl⟩⟩

theorem rxStartS4_keepsInv : MicroStepKeepsInv .rxStartS4 := by
  intro s h
  obtain ⟨hcfg, hrb, htx, hrx, hled, htxf, hledf, -⟩ := inv_setHost.1 h
  exact inv_setHost.2 ⟨hcfg, hrb, htx, hrx, hled, htxf, hledf, rfl⟩

theorem rxAvailS2_keepsInv (m : Cursor) : MicroStepKeepsInv (.rxAvailS2 m) := fun _ h =>
  inv_answer.2 (h.moveHost (q := .idle) rfl)

theorem rxReadS2_keepsInv (t : Cursor) (v : Byte) : MicroStepKeepsInv (.rxReadS2 t v) := by
  intro s h
  obtain ⟨hcfg, hrb, htx, ⟨htail, hrem, hremMax, hmem⟩, hled, htxf, hledf, hok⟩ := inv_setHost.1 h
  obtain ⟨-, -, ⟨-, hn⟩, -⟩ := id hcfg
  obtain rfl := hostOk_rxReadS2.1 hok
  exact inv_setHost.2 ⟨hcfg, hrb, htx, ⟨incCursor_lt hn htail, hrem, hremMax, hmem⟩, hled, htxf, hledf, rfl⟩

/-- A code stored by a micro-step of `LED.CLEAR` or `LED.WRITE`, after which `HOST` stands at `q`. -/
theorem ledCode_keepsInv {s : State} {p q : HostPos} {i : Nat} (v : Byte) (h : Inv (s.setHost p)) (hi : i < s.cfg.frameBytes)
    (hok : hostOk (s.setHost q) = true) (hout : outsideTxStart p = true) (hled : outsideLedUpdate p = true) :
    Inv ((s.setMem .led (s.led.enc.write i v)).setHost q) := by
  obtain ⟨hcfg, hrb, htx, hrx, ⟨hpos, hcnt, hmem⟩, htxf, hledf, -⟩ := inv_setHost.1 (h.moveHost hok hout hled)
  refine inv_setHost.2 ⟨hcfg, hrb, htx, hrx, ⟨hpos, hcnt, Memory.write_wf v hmem hi⟩, htxf, hledf, ?_⟩
  exact hok

theorem ledClearMicro_keepsInv {s : State} {p : HostPos} (i : Nat) (h : Inv (s.setHost p))
    (hout : outsideTxStart p = true := by rfl) (hled : outsideLedUpdate p = true := by rfl) :
    LeadsTo Inv (ledClearMicro i (s.setHost p)) := by
  refine leadsTo_ite (fun _ => leadsTo_store fun hi => leadsTo_ite (fun hnext => ?_) fun _ => ?_) fun _ => ?_
  · exact ledCode_keepsInv _ h hi (hostOk_ledClearAt.2 hnext) hout hled
  · exact inv_answer.2 (ledCode_keepsInv (q := .idle) _ h hi rfl hout hled)
  · exact inv_answer.2 (h.moveHost (q := .idle) rfl hout hled)

theorem ledWriteMicro_keepsInv {s : State} {p : HostPos} {idx : BitVec 16} (c : Colour) (b : Nat) (h : Inv (s.setHost p))
    (hidx : idx.toNat < s.cfg.stripLength) (hout : outsideTxStart p = true := by rfl)
    (hled : outsideLedUpdate p = true := by rfl) : LeadsTo Inv (ledWriteMicro idx c b (s.setHost p)) := by
  refine leadsTo_store fun hi => leadsTo_ite (fun hnext => ?_) fun _ => ?_
  · exact ledCode_keepsInv _ h hi (hostOk_ledWriteAt.2 ⟨hidx, hnext⟩) hout hled
  · exact inv_answer.2 (ledCode_keepsInv (q := .idle) _ h hi rfl hout hled)

theorem ledClearAt_keepsInv (i : Nat) : MicroStepKeepsInv (.ledClearAt i) := fun _ h => ledClearMicro_keepsInv i h

theorem ledWriteAt_keepsInv (idx : BitVec 16) (c : Colour) (b : Nat) : MicroStepKeepsInv (.ledWriteAt idx c b) := by
  intro s h
  obtain ⟨-, -, -, -, -, -, -, hok⟩ := inv_setHost.1 h
  obtain ⟨hidx, -⟩ := hostOk_ledWriteAt.1 hok
  exact ledWriteMicro_keepsInv c b h hidx

theorem ledUpdateS2_keepsInv : MicroStepKeepsInv .ledUpdateS2 := by
  intro s h
  obtain ⟨hcfg, hrb, htx, hrx, hled, htxf, hledf, hok⟩ := inv_setHost.1 h
  obtain ⟨-, hidle, -⟩ := hledf rfl
  obtain ⟨htc, hcnt, hxfer, hgen⟩ := hidle (hostOk_ledUpdateS2.1 hok)
  exact inv_setHost.2 ⟨hcfg, hrb, htx, hrx, hled, htxf, nofun,
    hostOk_ledUpdateS3.2 ⟨ledClaimed_iff.2 ⟨rfl, htc, hxfer⟩, hgen, hcnt⟩⟩

theorem ledUpdateS3_keepsInv : MicroStepKeepsInv .ledUpdateS3 := by
  intro s h
  obtain ⟨hcfg, hrb, htx, hrx, ⟨-, -, hmem⟩, htxf, -, hok⟩ := inv_setHost.1 h
  obtain ⟨hclaimed, hgen, -⟩ := hostOk_ledUpdateS3.1 hok
  have hcnt := ledCount_toNat (frameBytes_bounds hcfg).2
  exact inv_setHost.2 ⟨hcfg, hrb, htx, hrx, ⟨Nat.zero_le _, hcnt.le, hmem⟩, htxf, nofun,
    hostOk_ledUpdateS4.2 ⟨hclaimed, hgen, rfl, hcnt⟩⟩

theorem ledUpdateS4_keepsInv : MicroStepKeepsInv .ledUpdateS4 := by
  intro s h
  obtain ⟨hcfg, hrb, htx, hrx, hled, htxf, -, hok⟩ := inv_setHost.1 h
  obtain ⟨hclaimed, -, hpos, hcnt⟩ := hostOk_ledUpdateS4.1 hok
  exact inv_setHost.2 ⟨hcfg, hrb, htx, hrx, hled, htxf, nofun, hostOk_ledUpdateS5.2 ⟨hclaimed, rfl, hpos, hcnt⟩⟩

/-- A frame armed over the whole buffer and started meets R40. -/
theorem ledFlagsOk_started {s : State} (hcfg : s.cfg.Valid) (hin : s.led.inflight = true) (htc : s.led.tc = false)
    (hxfer : s.led.xferEn = true) (hgen : s.led.genEn = true) (hpos : s.led.pos = 0#21)
    (hcnt : s.led.cnt.toNat = s.cfg.frameBytes) : LedFlagsOk s := by
  obtain ⟨hsize, -⟩ := frameBytes_bounds hcfg
  have hframe : s.led.pos.toNat + s.led.cnt.toNat = s.cfg.frameBytes := by rw [hpos, hcnt]; exact Nat.zero_add _
  exact ⟨fun hc => absurd hc (by simp [htc]), fun hc => absurd hc (by simp [hin]), fun _ => ⟨hxfer, hgen, hframe⟩,
    fun _ _ => hcnt ▸ hsize⟩

theorem ledUpdateS5_keepsInv : MicroStepKeepsInv .ledUpdateS5 := by
  intro s h
  obtain ⟨hcfg, hrb, htx, hrx, hled, htxf, -, hok⟩ := inv_setHost.1 h
  obtain ⟨hclaimed, hgen, hpos, hcnt⟩ := hostOk_ledUpdateS5.1 hok
  obtain ⟨hin, htc, -⟩ := ledClaimed_iff.1 hclaimed
  exact inv_setHost.2 ⟨hcfg, hrb, htx, hrx, hled, htxf,
    fun _ => ledFlagsOk_started (s := s.setLed { s.led with xferEn := true }) hcfg hin htc rfl hgen hpos hcnt, rfl⟩

theorem hostMicro_keepsInv {s : State} (h : Inv s) : LeadsTo Inv (hostMicro s.host s) := by
  have hkeeps : MicroStepKeepsInv s.host := by
    cases s.host with
    | idle => exact fun _ h => h
    | rbPushS2 c b => exact rbPushS2_keepsInv c b
    | rbPushS3 c => exact rbPushS3_keepsInv c
    | rbPopS2 c => exact rbPopS2_keepsInv c
    | rbPopS3 c v => exact rbPopS3_keepsInv c v
    | txEnqS2 c b => exact txEnqS2_keepsInv c b
    | txEnqS3 c => exact txEnqS3_keepsInv c
    | txStartS2 => exact txStartS2_keepsInv
    | txStartS3 t r => exact txStartS3_keepsInv t r
    | txStartS4 t r => exact txStartS4_keepsInv t r
    | txStartS5 => exact txStartS5_keepsInv
    | rxStartS2 => exact rxStartS2_keepsInv
    | rxStartS3 => exact rxStartS3_keepsInv
    | rxStartS4 => exact rxStartS4_keepsInv
    | rxAvailS2 m => exact rxAvailS2_keepsInv m
    | rxReadS2 t v => exact rxReadS2_keepsInv t v
    | ledClearAt i => exact ledClearAt_keepsInv i
    | ledWriteAt idx c b => exact ledWriteAt_keepsInv idx c b
    | ledUpdateS2 => exact ledUpdateS2_keepsInv
    | ledUpdateS3 => exact ledUpdateS3_keepsInv
    | ledUpdateS4 => exact ledUpdateS4_keepsInv
    | ledUpdateS5 => exact ledUpdateS5_keepsInv
  exact hkeeps s h

end Sys2Proof.Machine
end

section
/-! SUPPORT. Every step of every agent keeps the invariant: the handlers and the engines, whatever `HOST` stands at, its operations, a reset. -/

namespace Sys2Proof.Machine

/-! ### Another agent writes a unit while `HOST` stands at any position -/

/-- While a transfer of `TX` is active or its completion pending, no `TX.START` is under way, and a `TX.ENQ` under way keeps its slot. -/
theorem hostOk_setTx {s : State} {p : HostPos} {u : Tx} (hok : hostOk (s.setHost p) = true) (hbusy : txAtRest s ≠ true)
    (hhead : u.head = s.tx.head)
    (hfree : isFull s.cfg.nTx s.tx.head s.tx.tail = false → isFull s.cfg.nTx s.tx.head u.tail = false) :
    hostOk ((s.setTx u).setHost p) = true := by
  have henq : ∀ c : Cursor, c = s.tx.head ∧ isFull s.cfg.nTx s.tx.head s.tx.tail = false →
      c = u.head ∧ isFull s.cfg.nTx u.head u.tail = false :=
    fun c ⟨hc, hf⟩ => ⟨hc.trans hhead.symm, by rw [hhead]; exact hfree hf⟩
  cases p with
  | txEnqS2 c b => exact hostOk_txEnqS2.2 (henq c (hostOk_txEnqS2.1 hok))
  | txEnqS3 c => exact hostOk_txEnqS3.2 (henq c (hostOk_txEnqS3.1 hok))
  | txStartS2 => exact absurd hok hbusy
  | txStartS3 t r => exact absurd (hostOk_txStartS3.1 hok).1 hbusy
  | txStartS4 t r => exact absurd (hostOk_txStartS4.1 hok).1 hbusy
  | txStartS5 => exact absurd (hostOk_txStartS5.1 hok).1 hbusy
  | _ => exact hok

/-- While `RX` is running, no `RX.START` is under way. -/
theorem hostOk_setRx {s : State} {p : HostPos} {u : Rx} (hok : hostOk (s.setHost p) = true) (hrun : s.rx.run = true)
    (htail : u.tail = s.rx.tail) : hostOk ((s.setRx u).setHost p) = true := by
  have hstop : ¬ s.rx.run = false := by simp [hrun]
  cases p with
  | rxStartS2 => exact absurd (hostOk_rxStartS2.1 hok) hstop
  | rxStartS3 => exact absurd (hostOk_rxStartS3.1 hok).1 hstop
  | rxStartS4 => exact absurd (hostOk_rxStartS4.1 hok).1 hstop
  | rxReadS2 t v => exact hostOk_rxReadS2.2 ((hostOk_rxReadS2.1 hok).trans htail.symm)
  | _ => exact hok

/-- While no frame is claimed that cannot run yet, a `LED.UPDATE` under way is before its s2. -/
theorem hostOk_setLed {s : State} {p : HostPos} {u : Led} (hok : hostOk (s.setHost p) = true)
    (hclaimed : ledClaimed s ≠ true) (hidle : s.led.inflight = false → u.inflight = false) :
    hostOk ((s.setLed u).setHost p) = true := by
  cases p with
  | ledUpdateS2 => exact hostOk_ledUpdateS2.2 (hidle (hostOk_ledUpdateS2.1 hok))
  | ledUpdateS3 => exact absurd (hostOk_ledUpdateS3.1 hok).1 hclaimed
  | ledUpdateS4 => exact absurd (hostOk_ledUpdateS4.1 hok).1 hclaimed
  | ledUpdateS5 => exact absurd (hostOk_ledUpdateS5.1 hok).1 hclaimed
  | _ => exact hok

/-! ### The handlers -/

section
variable {s : State}

/-- While the completion of a transfer is pending, `HOST` is outside s3 to s5 of `TX.START`: they begin with none (R147). -/
theorem outsideTxStart_of_tc (hok : hostOk s = true) (htc : s.tx.tc = true) : outsideTxStart s.host = true := by
  unfold hostOk at hok
  cases hp : s.host with
  | txStartS4 t r => simp [hp, txAtRest, htc] at hok
  | txStartS5 => simp [hp, txAtRest, htc] at hok
  | _ => rfl

/-- While the completion of a frame is pending, `HOST` is outside s2 to s5 of `LED.UPDATE` (R189). -/
theorem outsideLedUpdate_of_tc (hok : hostOk s = true) (htc : s.led.tc = true) : outsideLedUpdate s.host = true := by
  unfold hostOk at hok
  cases hp : s.host with
  | ledUpdateS3 => simp [hp, ledClaimed, htc] at hok
  | ledUpdateS4 => simp [hp, ledClaimed, htc] at hok
  | ledUpdateS5 => simp [hp, ledClaimed, htc] at hok
  | _ => rfl

/-- A run armed from `TX.tail`, committed and started, in one step. -/
theorem txArmed_keepsInv {r : Cursor} (h : Inv s) (htc : s.tx.tc = false)
    (hr : r = BitVec.ofNat 16 (run s.cfg.nTx s.tx.head.toNat s.tx.tail.toNat))
    (hd : cursorDist s.cfg.nTx s.tx.head.toNat s.tx.tail.toNat ≠ 0)
    (hok : hostOk (s.setTx (txArmed s.cfg.nTx r s.tx)) = true) : Inv (s.setTx (txArmed s.cfg.nTx r s.tx)) := by
  obtain ⟨hcfg, hrb, ⟨hhead, htail, -, -, hmem⟩, hrx, hled, -, hledf, -⟩ := h
  obtain ⟨-, ⟨-, hn⟩, -⟩ := id hcfg
  obtain ⟨hpos, hlt, hend⟩ := runCursor_bounds hn hhead htail hd hr
  have hmod : (s.tx.tail.toNat + r.toNat) % s.cfg.nTx < s.cfg.nTx := Nat.mod_lt _ (by omega)
  have htail' : (txArmed s.cfg.nTx r s.tx).tail.toNat = (s.tx.tail.toNat + r.toNat) % s.cfg.nTx := cursor_toNat (by omega)
  have hflags : TxFlagsOk (s.setTx (txArmed s.cfg.nTx r s.tx)) :=
    ⟨fun hc => absurd (htc.symm.trans hc) nofun, nofun, fun _ _ => hpos, fun _ => ⟨hend, htail'.symm⟩⟩
  exact ⟨hcfg, hrb, ⟨hhead, htail'.trans_lt hmod, htail.le, hlt, hmem⟩, hrx, hled, fun _ => hflags, hledf, hok⟩

/-- A run committed does not fill the buffer for a `TX.ENQ` under way. -/
theorem isFull_txArmed {r : Cursor} (hcfg : s.cfg.Valid) (htx : TxOk s)
    (hr : r = BitVec.ofNat 16 (run s.cfg.nTx s.tx.head.toNat s.tx.tail.toNat))
    (hd : cursorDist s.cfg.nTx s.tx.head.toNat s.tx.tail.toNat ≠ 0) :
    isFull s.cfg.nTx s.tx.head (txArmed s.cfg.nTx r s.tx).tail = false := by
  obtain ⟨-, ⟨-, hn⟩, -⟩ := hcfg
  obtain ⟨hhead, htail, -⟩ := htx
  have hrun := run_le_cursorDist s.cfg.nTx s.tx.head.toNat s.tx.tail.toNat
  have hdist := cursorDist_lt hhead htail
  have hmod : (s.tx.tail.toNat + r.toNat) % s.cfg.nTx < s.cfg.nTx := Nat.mod_lt _ (by omega)
  rw [isFull_eq_false, txArmed, cursor_toNat (by omega), hr, cursor_toNat (by omega)]
  exact inc_ne_runEnd hhead htail hd

theorem execTxEvt_keepsInv (h : Inv s) : LeadsTo Inv (execTxEvt s) := by
  rw [execTxEvt_eq]
  refine leadsTo_ite (fun htc => ?_) fun _ => h
  obtain ⟨hcfg, hrb, htx, hrx, hled, htxf, hledf, hok⟩ := id h
  obtain ⟨hactive, -⟩ := htxf (outsideTxStart_of_tc hok htc)
  obtain ⟨-, hcnt⟩ := hactive htc
  have hbusy : txAtRest s ≠ true := by simp [txAtRest, htc]
  have hack : Inv (txAcknowledge s) :=
    ⟨hcfg, hrb, htx, hrx, hled, fun _ => ⟨nofun, fun _ => ⟨rfl, hcnt⟩, nofun, nofun⟩, hledf,
      hostOk_setTx (p := s.host) (u := (txAcknowledge s).tx) hok hbusy rfl id⟩
  refine leadsTo_ite (fun _ => hack) fun hd => ?_
  have hfree := isFull_txArmed (s := txAcknowledge s) hcfg htx rfl hd
  have hokArmed := hostOk_setTx (p := s.host) (u := txArmed s.cfg.nTx _ (txAcknowledge s).tx) hok hbusy rfl fun _ => hfree
  exact inv_answer.2 (txArmed_keepsInv hack rfl rfl hd hokArmed)

theorem execLedEvt_keepsInv (h : Inv s) : LeadsTo Inv (execLedEvt s) := by
  rw [execLedEvt_eq]
  refine leadsTo_ite (fun htc => ?_) fun _ => h
  obtain ⟨hcfg, hrb, htx, hrx, hled, htxf, hledf, hok⟩ := h
  obtain ⟨hdone, -⟩ := hledf (outsideLedUpdate_of_tc hok htc)
  obtain ⟨-, hcnt⟩ := hdone htc
  have hclaimed : ledClaimed s ≠ true := by simp [ledClaimed, htc]
  exact ⟨hcfg, hrb, htx, hrx, hled, htxf, fun _ => ⟨nofun, fun _ => ⟨rfl, hcnt, rfl, rfl⟩, nofun, nofun⟩,
    hostOk_setLed (p := s.host) hok hclaimed fun _ => rfl⟩

/-! ### The engines -/

theorem xtxEnabled_iff : xtxEnabled s = true ↔ s.tx.active = true ∧ 0 < s.tx.cnt.toNat := by
  simp [xtxEnabled]

theorem xledEnabled_iff : xledEnabled s = true ↔ s.led.xferEn = true ∧ s.led.genEn = true ∧ 0 < s.led.cnt.toNat := by
  simp [xledEnabled, and_assoc]

/-- Moving a byte takes it off the count and leaves the end of the run where it is; the last byte, and no other, completes it. -/
theorem txFlagsOk_descriptorStep (h : TxFlagsOk s) (hactive : s.tx.active = true) (hcnt : 0 < s.tx.cnt.toNat)
    (hsrc' : (s.tx.src + 1#16).toNat = s.tx.src.toNat + 1) (hcnt' : (s.tx.cnt - 1#16).toNat = s.tx.cnt.toNat - 1) :
    TxFlagsOk (s.setTx (txDescriptorStep s.tx)) := by
  obtain ⟨hdone, -, -, hplace⟩ := h
  obtain ⟨hend, htail⟩ := hplace hactive
  have htc : s.tx.tc = false := by
    by_contra hc
    obtain ⟨-, hzero⟩ := hdone (Bool.eq_true_of_not_eq_false hc)
    simp [hzero] at hcnt
  have hlast : (txDescriptorStep s.tx).tc = true ↔ s.tx.cnt.toNat = 1 := by
    simp [txDescriptorStep, htc, ← BitVec.toNat_inj]
  have hsum : (s.tx.src + 1#16).toNat + (s.tx.cnt - 1#16).toNat = s.tx.src.toNat + s.tx.cnt.toNat := by omega
  refine ⟨fun hc => ⟨hactive, BitVec.eq_of_toNat_eq ?_⟩, fun hc => absurd (hactive.symm.trans hc) nofun, fun _ hc => ?_,
    fun _ => ⟨?_, ?_⟩⟩
  · exact hcnt'.trans (by rw [hlast.1 hc]; rfl)
  · have : s.tx.cnt.toNat ≠ 1 := fun h1 => absurd ((hlast.2 h1).symm.trans hc) nofun
    exact hcnt'.symm ▸ (by omega : 1 ≤ s.tx.cnt.toNat - 1)
  · exact hsum ▸ hend
  · exact (congrArg (· % s.cfg.nTx) hsum).trans htail

theorem xtxStep_keepsInv (h : Inv s) : LeadsTo Inv (xtxStep s) := by
  refine leadsTo_ite (fun he => leadsTo_withByte fun v hsrc => ?_) fun _ => h
  obtain ⟨hcfg, hrb, ⟨hhead, htail, -, hcntLt, hmem⟩, hrx, hled, htxf, hledf, hok⟩ := h
  obtain ⟨-, ⟨-, hn⟩, -⟩ := id hcfg
  obtain ⟨hactive, hcnt⟩ := xtxEnabled_iff.1 he
  replace hsrc : s.tx.src.toNat < s.cfg.nTx := hsrc
  have hsrc' : (s.tx.src + 1#16).toNat = s.tx.src.toNat + 1 := by bv_omega
  have hcnt' : (s.tx.cnt - 1#16).toNat = s.tx.cnt.toNat - 1 := by bv_omega
  have hbusy : txAtRest s ≠ true := by simp [txAtRest, hactive]
  have hflags := txFlagsOk_descriptorStep (htxf (outsideTxStart_of_active hok hactive)) hactive hcnt hsrc' hcnt'
  have hcntLt' : (s.tx.cnt - 1#16).toNat < s.cfg.nTx := by omega
  exact ⟨hcfg, hrb, ⟨hhead, htail, hsrc'.trans_le hsrc, hcntLt', hmem⟩, hrx, hled, fun _ => hflags, hledf,
    hostOk_setTx (p := s.host) (u := txDescriptorStep s.tx) hok hbusy rfl id⟩

theorem rxCountStep_bounds {cfg : Config} {rem : Cursor} (hcfg : cfg.Valid) (hrem : 1 ≤ rem.toNat) (hmax : rem.toNat ≤ cfg.nRx) :
    1 ≤ (rxCountStep cfg.nRx rem).toNat ∧ (rxCountStep cfg.nRx rem).toNat ≤ cfg.nRx := by
  unfold rxCountStep
  split
  · exact rxFullCount hcfg
  · have hrem' : (rem - 1#16).toNat = rem.toNat - 1 := by bv_omega
    have hne : rem.toNat ≠ 1 := fun h1 => absurd (BitVec.eq_of_toNat_eq h1) ‹_›
    omega

theorem xrxStep_keepsInv (h : Inv s) : LeadsTo Inv (xrxStep s) := by
  cases hr : s.rx.run with
  | false => rw [xrxStep_disabled (.inl hr)]; exact h
  | true =>
    cases hi : s.rxIn with
    | nil => rw [xrxStep_disabled (.inr hi)]; exact h
    | cons b bs =>
      obtain ⟨hcfg, hrb, htx, ⟨htail, hrem, hremMax, hmem⟩, hled, htxf, hledf, hok⟩ := h
      have hindex : rxWriteIndex s.cfg.nRx s.rx.rem < s.cfg.nRx := by unfold rxWriteIndex; omega
      obtain ⟨hrem', hremMax'⟩ := rxCountStep_bounds hcfg hrem hremMax
      rw [xrxStep_enabled hr hi hindex]
      exact ⟨hcfg, hrb, htx, ⟨htail, hrem', hremMax', Memory.write_wf b hmem hindex⟩, hled, htxf, hledf,
        hostOk_setRx (p := s.host) (u := { s.rx with
          mem := s.rx.mem.write (rxWriteIndex s.cfg.nRx s.rx.rem) b, rem := rxCountStep s.cfg.nRx s.rx.rem }) hok hr rfl⟩

/-- Emitting a pulse takes it off the count; the last pulse, and no other, completes the frame. -/
theorem ledFlagsOk_descriptorStep (ph : Phase) (h : LedFlagsOk s) (hxfer : s.led.xferEn = true) (hgen : s.led.genEn = true)
    (hcnt : 0 < s.led.cnt.toNat) (hpos' : (s.led.pos + 1#21).toNat = s.led.pos.toNat + 1)
    (hcnt' : (s.led.cnt - 1#21).toNat = s.led.cnt.toNat - 1) : LedFlagsOk (s.setLed (ledDescriptorStep ph s.led)) := by
  obtain ⟨hdone, hidle, hrunning, -⟩ := h
  have hin : s.led.inflight = true := by
    by_contra hc
    obtain ⟨-, -, hoff, -⟩ := hidle (Bool.eq_false_of_not_eq_true hc)
    simp [hoff] at hxfer
  obtain ⟨-, -, hframe⟩ := hrunning hin
  have htc : s.led.tc = false := by
    by_contra hc
    obtain ⟨-, hzero⟩ := hdone (Bool.eq_true_of_not_eq_false hc)
    simp [hzero] at hcnt
  have hlast : (ledDescriptorStep ph s.led).tc = true ↔ s.led.cnt.toNat = 1 := by
    simp [ledDescriptorStep, htc, ← BitVec.toNat_inj]
  have hsum : (s.led.pos + 1#21).toNat + (s.led.cnt - 1#21).toNat = s.cfg.frameBytes := by omega
  refine ⟨fun hc => ⟨hin, BitVec.eq_of_toNat_eq ?_⟩, fun hc => absurd (hin.symm.trans hc) nofun,
    fun _ => ⟨hxfer, hgen, hsum⟩, fun _ hc => ?_⟩
  · exact hcnt'.trans (by rw [hlast.1 hc]; rfl)
  · have : s.led.cnt.toNat ≠ 1 := fun h1 => absurd ((hlast.2 h1).symm.trans hc) nofun
    exact hcnt'.symm ▸ (by omega : 1 ≤ s.led.cnt.toNat - 1)

theorem xledStep_keepsInv (h : Inv s) : LeadsTo Inv (xledStep s) := by
  refine leadsTo_ite (fun he => leadsTo_withByte fun v hpos => ?_) fun _ => h
  obtain ⟨hcfg, hrb, htx, hrx, ⟨-, hcntLe, hmem⟩, htxf, hledf, hok⟩ := h
  obtain ⟨-, hsize⟩ := frameBytes_bounds hcfg
  obtain ⟨hxfer, hgen, hcnt⟩ := xledEnabled_iff.1 he
  replace hpos : s.led.pos.toNat < s.cfg.frameBytes := hpos
  have hpos' : (s.led.pos + 1#21).toNat = s.led.pos.toNat + 1 := by bv_omega
  have hcnt' : (s.led.cnt - 1#21).toNat = s.led.cnt.toNat - 1 := by bv_omega
  have hclaimed : ledClaimed s ≠ true := by simp [ledClaimed, hxfer]
  have hflags := ledFlagsOk_descriptorStep (Config.freePhase s.draws) (hledf (outsideLedUpdate_of_xferEn hok hxfer))
    hxfer hgen hcnt hpos' hcnt'
  have hcntLe' : (s.led.cnt - 1#21).toNat ≤ s.cfg.frameBytes := by omega
  exact ⟨hcfg, hrb, htx, hrx, ⟨hpos'.trans_le hpos, hcntLe', hmem⟩, htxf, fun _ => hflags,
    hostOk_setLed (p := s.host) (u := ledDescriptorStep (Config.freePhase s.draws) s.led) hok hclaimed id⟩

end

/-! ### The operations, whole and from their first micro-step, of an idle `HOST` -/

theorem colourCodes_length (cfg : Config) (c : Colour) : (colourCodes cfg c).length = 24 := by
  simp [colourCodes]

section
variable {s : State}

/-- Codes stored inside the encode buffer keep the invariant. -/
theorem ledStoreRun_keepsInv {base : Nat} {codes : List Byte} (h : Inv s) (hb : base + codes.length ≤ s.cfg.frameBytes) :
    Inv (ledStoreRun base codes s) := by
  obtain ⟨hcfg, hrb, htx, hrx, ⟨hpos, hcnt, hmem⟩, htxf, hledf, hok⟩ := h
  exact ⟨hcfg, hrb, htx, hrx, ⟨hpos, hcnt, ledStoreRun_keeps_wf hmem hb⟩, htxf, hledf, hok⟩

theorem rxStart_begins (h : Inv (s.setHost .idle)) (hstopped : ¬ s.rx.run = true) : Inv (s.setHost .rxStartS2) :=
  h.moveHost (hostOk_rxStartS2.2 (Bool.eq_false_of_not_eq_true hstopped))

theorem ledUpdateStarts_inflight (h : ledUpdateStarts s = true) : s.led.inflight = false := by
  simp only [ledUpdateStarts, Bool.and_eq_true, Bool.not_eq_true'] at h
  exact h.1

theorem ledUpdate_begins (h : Inv (s.setHost .idle)) (hstarts : ledUpdateStarts s = true) : Inv (s.setHost .ledUpdateS2) :=
  h.moveHost (hostOk_ledUpdateS2.2 (ledUpdateStarts_inflight hstarts))

theorem execTxStart_keepsInv (h : Inv (s.setHost .idle)) : LeadsTo Inv (execTxStart (s.setHost .idle)) := by
  obtain ⟨-, -, -, -, -, htxf, -⟩ := id h
  unfold execTxStart
  rw [txStartBody_eq]
  split
  · exact h
  · split
    · exact h
    · obtain ⟨-, hstopped, -⟩ := htxf rfl
      obtain ⟨htc, -⟩ := hstopped (Bool.eq_false_of_not_eq_true ‹_›)
      exact inv_answer.2 (txArmed_keepsInv h htc rfl ‹_› rfl)

theorem exec_keepsInv (h : Inv (s.setHost .idle)) (i : Instr) : LeadsTo Inv (exec i (s.setHost .idle)) := by
  obtain ⟨hcfg, hrb, htx, hrx, hled, htxf, hledf, -⟩ := inv_setHost.1 h
  obtain ⟨⟨-, hnRb⟩, ⟨-, hnTx⟩, ⟨-, hnRx⟩, -⟩ := id hcfg
  cases i with
  | rbPush b =>
    obtain ⟨hhead, htail, hmem⟩ := hrb
    by_cases hf : inc s.cfg.nRb s.rb.head.toNat = s.rb.tail.toNat
    · rw [exec, execRbPush_full (s := s.setHost .idle) b hf]
      exact h
    · rw [exec, execRbPush_free (s := s.setHost .idle) b hf hhead]
      exact inv_setHost.2 ⟨hcfg, ⟨incCursor_lt hnRb hhead, htail, Memory.write_wf b hmem hhead⟩, htx, hrx, hled, htxf, hledf, rfl⟩
  | rbPop =>
    obtain ⟨hhead, htail, hmem⟩ := hrb
    by_cases he : s.rb.head = s.rb.tail
    · rw [exec, execRbPop_empty (s := s.setHost .idle) he]
      trivial
    · rw [exec, execRbPop_some (s := s.setHost .idle) he htail]
      exact inv_setHost.2 ⟨hcfg, ⟨hhead, incCursor_lt hnRb htail, hmem⟩, htx, hrx, hled, htxf, hledf, rfl⟩
  | txEnq b =>
    obtain ⟨hhead, htail, hsrc, hcnt, hmem⟩ := htx
    by_cases hf : inc s.cfg.nTx s.tx.head.toNat = s.tx.tail.toNat
    · rw [exec, execTxEnq_full (s := s.setHost .idle) b hf]
      exact h
    · rw [exec, execTxEnq_free (s := s.setHost .idle) b hf hhead]
      exact inv_setHost.2 ⟨hcfg, hrb, ⟨incCursor_lt hnTx hhead, htail, hsrc, hcnt, Memory.write_wf b hmem hhead⟩, hrx, hled,
        htxf, hledf, rfl⟩
  | txStart => exact execTxStart_keepsInv h
  | txEvt => exact execTxEvt_keepsInv h
  | rxStart =>
    refine leadsTo_ite (fun _ => trivial) fun hstopped => ?_
    have hs3 := rxStartS2_keepsInv s (rxStart_begins h hstopped)
    have hs4 := rxStartS3_keepsInv (rxStartRem s) hs3
    exact rxStartS4_keepsInv (rxStartTail (rxStartRem s)) hs4
  | rxStop => exact inv_setHost.2 ⟨hcfg, hrb, htx, hrx, hled, htxf, hledf, rfl⟩
  | rxRead =>
    obtain ⟨htail, hrem, hremMax, hmem⟩ := hrx
    rw [exec, execRxRead_eq (s := s.setHost .idle) htail]
    exact inv_setHost.2 ⟨hcfg, hrb, htx, ⟨incCursor_lt hnRx htail, hrem, hremMax, hmem⟩, hled, htxf, hledf, rfl⟩
  | ledClear =>
    exact inv_answer.2 (ledStoreRun_keepsInv h (by simp))
  | ledWrite idx c =>
    refine leadsTo_ite (fun hi => inv_answer.2 (ledStoreRun_keepsInv h ?_)) fun _ => h
    rw [colourCodes_length, ledIndex, Config.frameBytes]
    omega
  | ledUpdate =>
    refine leadsTo_ite (fun hstarts => ?_) fun _ => h
    have hs3 := ledUpdateS2_keepsInv s (ledUpdate_begins h hstarts)
    have hs4 := ledUpdateS3_keepsInv (ledUpdateFlag s) hs3
    have hs5 := ledUpdateS4_keepsInv (ledUpdateArm (ledUpdateFlag s)) hs4
    exact ledUpdateS5_keepsInv (ledUpdateGen (ledUpdateArm (ledUpdateFlag s))) hs5
  | ledEvt => exact execLedEvt_keepsInv h
  | rbAvail | rbIsEmpty | rbIsFull | rxAvail => exact h

theorem hostBegin_keepsInv (h : Inv (s.setHost .idle)) (i : Instr) : LeadsTo Inv (hostBegin i (s.setHost .idle)) := by
  obtain ⟨hcfg, -, -, ⟨-, hrem, hremMax, -⟩, -, htxf, -⟩ := inv_setHost.1 h
  cases i with
  | rbPush b =>
    cases hslot : rbPushSlot (s.setHost .idle) with
    | none => simp only [hostBegin, hslot]; exact h
    | some c => simp only [hostBegin, hslot]; exact h.moveHost (hostOk_rbPushS2.2 (rbPushSlot_eq_some hslot))
  | rbPop =>
    cases hslot : rbPopSlot (s.setHost .idle) with
    | none => simp only [hostBegin, hslot]; trivial
    | some c => simp only [hostBegin, hslot]; exact h.moveHost (hostOk_rbPopS2.2 (rbPopSlot_eq_some hslot))
  | txEnq b =>
    cases hslot : txEnqSlot (s.setHost .idle) with
    | none => simp only [hostBegin, hslot]; exact h
    | some c => simp only [hostBegin, hslot]; exact h.moveHost (hostOk_txEnqS2.2 (txEnqSlot_eq_some hslot))
  | txStart =>
    refine leadsTo_ite (fun _ => h) fun hinactive => ?_
    replace hinactive := Bool.eq_false_of_not_eq_true hinactive
    obtain ⟨-, hstopped, -⟩ := htxf rfl
    obtain ⟨htc, -⟩ := hstopped hinactive
    exact h.moveHost (q := .txStartS2) (txAtRest_iff.2 ⟨hinactive, htc⟩)
  | rxStart => exact leadsTo_ite (fun _ => trivial) fun hstopped => rxStart_begins h hstopped
  | rxAvail => exact h.moveHost (hostOk_rxAvailS2.2 ⟨hrem, hremMax⟩)
  | rxRead =>
    simp only [hostBegin, rxReadLoad]
    exact leadsTo_withByte fun _ _ => h.moveHost (hostOk_rxReadS2.2 rfl)
  | ledClear => exact ledClearMicro_keepsInv 0 h
  | ledWrite idx c => exact leadsTo_ite (fun hidx => ledWriteMicro_keepsInv c 0 h hidx) fun _ => h
  | ledUpdate => exact leadsTo_ite (fun hstarts => ledUpdate_begins h hstarts) fun _ => h
  | rbAvail => exact exec_keepsInv h .rbAvail
  | rbIsEmpty => exact exec_keepsInv h .rbIsEmpty
  | rbIsFull => exact exec_keepsInv h .rbIsFull
  | rxStop => exact exec_keepsInv h .rxStop
  | txEvt => exact execTxEvt_keepsInv h
  | ledEvt => exact execLedEvt_keepsInv h

/-! ### Reset -/

/-- After reset every register is 0 but `RX.rem`, which is `N`, and no flag is set (R48). -/
theorem resetWith_inv {cfg : Config} (hcfg : cfg.Valid) : Inv (State.resetWith cfg) := by
  obtain ⟨⟨hnRb, -⟩, ⟨hnTx, -⟩, ⟨hnRx, -⟩, -⟩ := id hcfg
  have hrb : 0 < cfg.nRb := by omega
  have htx : 0 < cfg.nTx := by omega
  have hrx : 0 < cfg.nRx := by omega
  obtain ⟨hrem, hremMax⟩ := rxFullCount hcfg
  exact ⟨hcfg, ⟨hrb, hrb, Memory.nil_wf _⟩, ⟨htx, htx, htx.le, htx, Memory.nil_wf _⟩, ⟨hrx, hrem, hremMax, Memory.nil_wf _⟩,
    ⟨Nat.zero_le _, Nat.zero_le _, Memory.nil_wf _⟩, fun _ => ⟨nofun, fun _ => ⟨rfl, rfl⟩, nofun, nofun⟩,
    fun _ => ⟨nofun, fun _ => ⟨rfl, rfl, rfl, rfl⟩, nofun, nofun⟩, rfl⟩

/-! ### The turns -/

theorem present_keepsInv (h : Inv (s.setHost .idle)) (w : Cmd) : LeadsTo Inv (present w (s.setHost .idle)) := by
  unfold present
  cases decode (s.setHost .idle).cfg w with
  | instr i => exact exec_keepsInv h i
  | illegal why => exact h

theorem presentFirst_keepsInv (h : Inv (s.setHost .idle)) (w : Cmd) : LeadsTo Inv (presentFirst w (s.setHost .idle)) := by
  unfold presentFirst
  cases decode (s.setHost .idle).cfg w with
  | instr i => exact hostBegin_keepsInv h i
  | illegal why => exact h

theorem setHost_of_host_eq {p : HostPos} (hp : s.host = p) : s.setHost p = s := by rw [← hp]; rfl

theorem hostTurn_keepsInv (h : Inv s) : LeadsTo Inv (hostTurn s) := by
  by_cases hidle : s.host = .idle
  · cases hprog : s.program with
    | nil => simp only [hostTurn, hidle, hprog]; exact h
    | cons w ws =>
      rw [hostTurn_idle hidle hprog, ← setHost_of_host_eq (s := s.setProgram ws) hidle]
      exact presentFirst_keepsInv (by rwa [setHost_of_host_eq (s := s.setProgram ws) hidle]) w
  · rw [hostTurn_inside hidle]
    exact hostMicro_keepsInv h

theorem hostOpTurn_keepsInv (h : Inv s) : LeadsTo Inv (hostOpTurn s) := by
  by_cases hidle : s.host = .idle
  · cases hprog : s.program with
    | nil => simp only [hostOpTurn, hidle, hprog]; exact h
    | cons w ws =>
      rw [hostOpTurn_idle hidle hprog, ← setHost_of_host_eq (s := s.setProgram ws) hidle]
      exact present_keepsInv (by rwa [setHost_of_host_eq (s := s.setProgram ws) hidle]) w
  · rw [hostOpTurn_inside hidle]
    exact h

theorem takeTurn_keepsInv (h : Inv s) (turn : Turn) : LeadsTo Inv (takeTurn turn s) := by
  obtain ⟨hcfg, -⟩ := id h
  cases turn with
  | host => exact hostTurn_keepsInv h
  | hostOp => exact hostOpTurn_keepsInv h
  | evt e =>
    cases e with
    | tx => exact execTxEvt_keepsInv h
    | led => exact execLedEvt_keepsInv h
  | xtx => exact xtxStep_keepsInv h
  | xrx => exact xrxStep_keepsInv h
  | xled => exact xledStep_keepsInv h
  | supply b => exact h
  | reset => exact resetWith_inv hcfg

theorem step_keepsInv (h : Inv s) : LeadsTo Inv (step s) := by
  cases hs : s.sched with
  | nil => rw [step_empty hs]; exact h
  | cons turn rest => rw [step_turn hs]; exact takeTurn_keepsInv (s := s.setSched rest) h turn

end

end Sys2Proof.Machine

namespace Sys2Proof.Proofs
open Sys2Proof.Machine

/-- Settles O56, by the agent whose turn it is (`takeTurn_keepsInv`). -/
theorem everyStepKeepsTheInvariant : Obligations.EveryStepKeepsTheInvariant :=
  fun _ _ hinv hstep => (step_keepsInv hinv).of_next hstep

/-- Settles O55: `resetWith_inv`, and the parameters of `State.reset` are valid. -/
theorem resetMeetsTheInvariant : Obligations.ResetMeetsTheInvariant :=
  ⟨fun _ hcfg => resetWith_inv hcfg, resetWith_inv (by decide)⟩

end Sys2Proof.Proofs
end

section
/-! SUPPORT. What an operation reads and writes (R20, R60, R209): its own unit, its output stream and the responses. -/

namespace Sys2Proof.Machine

/-! ### An operation writes its own unit -/

section
variable {s : State}

theorem onlyUnit_refl (u : MemId) (s : State) : OnlyUnit u s s := by
  cases u <;> exact ⟨⟨rfl, rfl, rfl, rfl, rfl, rfl, rfl⟩, by simp⟩

theorem onlyUnit_answer {u : MemId} {t : State} (h : OnlyUnit u s t) (st : Status) (v : BitVec 16) :
    OnlyUnit u s (t.answer st v) := by
  cases u <;> exact h

theorem onlyUnit_setRb (x : Rb) : OnlyUnit .rb s (s.setRb x) := onlyUnit_refl .rb s
theorem onlyUnit_setTx (x : Tx) : OnlyUnit .tx s (s.setTx x) := onlyUnit_refl .tx s
theorem onlyUnit_setRx (x : Rx) : OnlyUnit .rx s (s.setRx x) := onlyUnit_refl .rx s
theorem onlyUnit_setLed (x : Led) : OnlyUnit .led s (s.setLed x) := onlyUnit_refl .led s
theorem onlyUnit_emitLed {t : State} (h : OnlyUnit .led s t) (m : LedMark) : OnlyUnit .led s (t.emitLed m) := h

theorem otherUnits_of_onlyUnit {u : MemId} {t : State} (h : OnlyUnit u s t) :
    (u ≠ .rb → t.rb = s.rb) ∧ (u ≠ .tx → t.tx = s.tx) ∧ (u ≠ .rx → t.rx = s.rx) ∧ (u ≠ .led → t.led = s.led) ∧
      t.epoch = s.epoch := by
  cases u with
  | rb =>
    obtain ⟨⟨-, -, -, -, -, hepoch, -⟩, htx, hrx, hled, -⟩ := h
    exact ⟨absurd rfl, fun _ => htx, fun _ => hrx, fun _ => hled, hepoch⟩
  | tx =>
    obtain ⟨⟨-, -, -, -, -, hepoch, -⟩, hrb, hrx, hled, -⟩ := h
    exact ⟨fun _ => hrb, absurd rfl, fun _ => hrx, fun _ => hled, hepoch⟩
  | rx =>
    obtain ⟨⟨-, -, -, -, -, hepoch, -⟩, hrb, htx, hled, -⟩ := h
    exact ⟨fun _ => hrb, fun _ => htx, absurd rfl, fun _ => hled, hepoch⟩
  | led =>
    obtain ⟨⟨-, -, -, -, -, hepoch, -⟩, hrb, htx, hrx, -⟩ := h
    exact ⟨fun _ => hrb, fun _ => htx, fun _ => hrx, absurd rfl, hepoch⟩

/-- The bytes of the other units are among what `OnlyUnit` leaves unchanged. -/
theorem byteAt_of_onlyUnit {u w : MemId} {t : State} (h : OnlyUnit u s t) (hw : w ≠ u) (j : Nat) :
    byteAt t w j = byteAt s w j := by
  obtain ⟨hrb, htx, hrx, hled, hepoch⟩ := otherUnits_of_onlyUnit h
  refine byteAt_congr ?_ hepoch j
  cases w with
  | rb => exact congrArg Rb.mem (hrb hw.symm)
  | tx => exact congrArg Tx.mem (htx hw.symm)
  | rx => exact congrArg Rx.mem (hrx hw.symm)
  | led => exact congrArg Led.enc (hled hw.symm)

theorem txStartBody_onlyTx (s : State) : OnlyUnit .tx s (txStartBody s).2 := by
  rw [txStartBody_eq]
  split
  · exact onlyUnit_refl .tx s
  · split
    · exact onlyUnit_refl .tx s
    · exact onlyUnit_setTx _

theorem exec_onlyUnit (i : Instr) (s : State) : LeadsTo (OnlyUnit (unitOf i) s) (exec i s) := by
  have hanswer : ∀ st v, OnlyUnit (unitOf i) s (s.answer st v) := onlyUnit_answer (onlyUnit_refl _ s)
  cases i with
  | rbPush b =>
    simp only [exec, execRbPush]
    cases rbPushSlot s with
    | none => exact hanswer _ _
    | some c => exact leadsTo_store fun _ => onlyUnit_answer (onlyUnit_setRb _) _ _
  | rbPop =>
    simp only [exec, execRbPop]
    cases rbPopSlot s with
    | none => trivial
    | some c => exact leadsTo_withByte fun _ _ => onlyUnit_answer (onlyUnit_setRb _) _ _
  | txEnq b =>
    simp only [exec, execTxEnq]
    cases txEnqSlot s with
    | none => exact hanswer _ _
    | some c => exact leadsTo_store fun _ => onlyUnit_answer (onlyUnit_setTx _) _ _
  | txStart => exact onlyUnit_answer (txStartBody_onlyTx s) _ _
  | txEvt => exact leadsTo_ite (fun _ => onlyUnit_answer (txStartBody_onlyTx (txAcknowledge s)) _ _) fun _ => hanswer _ _
  | rxStart => exact leadsTo_ite (fun _ => trivial) fun _ => onlyUnit_answer (onlyUnit_setRx _) _ _
  | rxStop => exact onlyUnit_answer (onlyUnit_setRx _) _ _
  | rxRead =>
    simp only [exec, execRxRead, rxReadLoad]
    exact leadsTo_withByte fun _ _ => onlyUnit_answer (onlyUnit_setRx _) _ _
  | ledClear => exact onlyUnit_answer (onlyUnit_setLed _) _ _
  | ledWrite idx c => exact leadsTo_ite (fun _ => onlyUnit_answer (onlyUnit_setLed _) _ _) fun _ => hanswer _ _
  | ledUpdate =>
    rw [exec, execLedUpdate_eq]
    exact leadsTo_ite (fun _ => onlyUnit_answer (onlyUnit_emitLed (onlyUnit_setLed _) _) _ _) fun _ => hanswer _ _
  | ledEvt => exact leadsTo_ite (fun _ => onlyUnit_answer (onlyUnit_setLed _) _ _) fun _ => hanswer _ _
  | rbAvail | rbIsEmpty | rbIsFull | rxAvail => exact hanswer _ _

end

/-! ### An operation reads its own unit -/

/-- The two answers, given in `s` and `s'`, are the same for the unit `u`: the same stop, or states in which `u` is the same and to
each of which the same response was added. -/
def SameOutcome (u : MemId) (s s' : State) : Result → Result → Prop
  | .next t, .next t' => SameUnit u t t' ∧ ∃ r, t.answers = s.answers ++ [r] ∧ t'.answers = s'.answers ++ [r]
  | .fault f, .fault f' => f' = f
  | .refused q, .refused q' => q' = q
  | _, _ => False

section
variable {u : MemId} {s s' : State}

theorem sameUnit_rb : SameUnit .rb s s' ↔ s'.cfg = s.cfg ∧ s'.epoch = s.epoch ∧ s'.rb = s.rb := Iff.rfl
theorem sameUnit_tx : SameUnit .tx s s' ↔ s'.cfg = s.cfg ∧ s'.epoch = s.epoch ∧ s'.tx = s.tx := Iff.rfl
theorem sameUnit_rx : SameUnit .rx s s' ↔ s'.cfg = s.cfg ∧ s'.epoch = s.epoch ∧ s'.rx = s.rx := Iff.rfl
theorem sameUnit_led : SameUnit .led s s' ↔ s'.cfg = s.cfg ∧ s'.epoch = s.epoch ∧ s'.led = s.led := Iff.rfl

theorem mem_of_sameUnit (h : SameUnit u s s') : s'.cfg = s.cfg ∧ s'.epoch = s.epoch ∧ s'.mem u = s.mem u := by
  obtain ⟨hcfg, hepoch, hunit⟩ := h
  refine ⟨hcfg, hepoch, ?_⟩
  cases u with
  | rb => exact congrArg Rb.mem hunit
  | tx => exact congrArg Tx.mem hunit
  | rx => exact congrArg Rx.mem hunit
  | led => exact congrArg Led.enc hunit

theorem SameUnit.setMem (h : SameUnit u s s') (m : Memory) : SameUnit u (s.setMem u m) (s'.setMem u m) := by
  obtain ⟨hcfg, hepoch, hunit⟩ := h
  cases u with
  | rb => exact ⟨hcfg, hepoch, congrArg (fun x : Rb => { x with mem := m }) hunit⟩
  | tx => exact ⟨hcfg, hepoch, congrArg (fun x : Tx => { x with mem := m }) hunit⟩
  | rx => exact ⟨hcfg, hepoch, congrArg (fun x : Rx => { x with mem := m }) hunit⟩
  | led => exact ⟨hcfg, hepoch, congrArg (fun x : Led => { x with enc := m }) hunit⟩

theorem SameOutcome.of_next {r' : Result} {t : State} (h : SameOutcome u s s' (.next t) r') :
    ∃ t' r, r' = .next t' ∧ SameUnit u t t' ∧ t.answers = s.answers ++ [r] ∧ t'.answers = s'.answers ++ [r] := by
  cases r' with
  | next t' =>
    obtain ⟨hunit, r, hr, hr'⟩ := h
    exact ⟨t', r, rfl, hunit, hr, hr'⟩
  | fault f' => exact h.elim
  | refused q' => exact h.elim

theorem SameOutcome.of_fault {r' : Result} {f : Fault} (h : SameOutcome u s s' (.fault f) r') : r' = .fault f := by
  cases r' with
  | fault f' => exact congrArg _ h
  | next t' => exact h.elim
  | refused q' => exact h.elim

theorem SameOutcome.of_refused {r' : Result} {q : Refusal} (h : SameOutcome u s s' (.refused q) r') : r' = .refused q := by
  cases r' with
  | refused q' => exact congrArg _ h
  | next t' => exact h.elim
  | fault f' => exact h.elim

theorem sameOutcome_answered {t t' : State} {v v' : BitVec 16} (st : Status) (h : SameUnit u t t') (hv : v' = v)
    (ht : t.answers = s.answers := by rfl) (ht' : t'.answers = s'.answers := by rfl) :
    SameOutcome u s s' (answered st v t) (answered st v' t') := by
  subst hv
  refine ⟨?_, response st v', congrArg (· ++ [response st v']) ht, congrArg (· ++ [response st v']) ht'⟩
  cases u <;> exact h

theorem sameOutcome_ite {c c' : Prop} [Decidable c] [Decidable c'] {a b a' b' : Result} (hc : c' ↔ c)
    (ha : c → SameOutcome u s s' a a') (hb : ¬ c → SameOutcome u s s' b b') :
    SameOutcome u s s' (if c then a else b) (if c' then a' else b') := by
  by_cases h : c
  · rw [if_pos h, if_pos (hc.2 h)]; exact ha h
  · rw [if_neg h, if_neg (mt hc.1 h)]; exact hb h

/-- A load from the unit hands the same byte on. -/
theorem sameOutcome_withByte {i i' : Nat} {k k' : Byte → Result} (h : SameUnit u s s') (hi : i' = i)
    (hk : ∀ v, SameOutcome u s s' (k v) (k' v)) : SameOutcome u s s' (withByte u i s k) (withByte u i' s' k') := by
  obtain ⟨hcfg, hepoch, hmem⟩ := mem_of_sameUnit h
  subst hi
  refine sameOutcome_ite (by rw [hcfg]) (fun _ => ?_) fun _ => rfl
  rw [byteAt_congr hmem hepoch]
  exact hk _

/-- A store to the unit leaves the same memory. -/
theorem sameOutcome_store {i : Nat} {v : Byte} {k k' : State → Result} (h : SameUnit u s s')
    (hk : ∀ m, SameOutcome u s s' (k (s.setMem u m)) (k' (s'.setMem u m))) :
    SameOutcome u s s' (andThen (storeByte u i v s) k) (andThen (storeByte u i v s') k') := by
  obtain ⟨hcfg, -, hmem⟩ := mem_of_sameUnit h
  rw [storeByte_eq, storeByte_eq, hcfg, hmem]
  split
  · exact hk _
  · rfl

theorem SameUnit.setRb (h : SameUnit .rb s s') {x x' : Rb} (hx : x' = x) : SameUnit .rb (s.setRb x) (s'.setRb x') := by
  obtain ⟨hcfg, hepoch, -⟩ := h
  exact ⟨hcfg, hepoch, hx⟩

theorem SameUnit.setTx (h : SameUnit .tx s s') {x x' : Tx} (hx : x' = x) : SameUnit .tx (s.setTx x) (s'.setTx x') := by
  obtain ⟨hcfg, hepoch, -⟩ := h
  exact ⟨hcfg, hepoch, hx⟩

theorem SameUnit.setRx (h : SameUnit .rx s s') {x x' : Rx} (hx : x' = x) : SameUnit .rx (s.setRx x) (s'.setRx x') := by
  obtain ⟨hcfg, hepoch, -⟩ := h
  exact ⟨hcfg, hepoch, hx⟩

theorem SameUnit.setLed (h : SameUnit .led s s') {x x' : Led} (hx : x' = x) : SameUnit .led (s.setLed x) (s'.setLed x') := by
  obtain ⟨hcfg, hepoch, -⟩ := h
  exact ⟨hcfg, hepoch, hx⟩

theorem SameUnit.emitLed (h : SameUnit .led s s') (m : LedMark) : SameUnit .led (s.emitLed m) (s'.emitLed m) := h

/-! #### Unit RB -/

theorem execRbPush_sameOutcome (b : Byte) (h : SameUnit .rb s s') : SameOutcome .rb s s' (execRbPush b s) (execRbPush b s') := by
  obtain ⟨hcfg, -, hrb⟩ := sameUnit_rb.1 h
  have hslot : rbPushSlot s' = rbPushSlot s := by simp only [rbPushSlot, hcfg, hrb]
  simp only [execRbPush, hslot]
  cases rbPushSlot s with
  | none => exact sameOutcome_answered _ h rfl
  | some c =>
    refine sameOutcome_store h fun m => sameOutcome_answered _ ((h.setMem m).setRb ?_) rfl
    simp [State.setMem, hcfg, hrb]

theorem execRbPop_sameOutcome (h : SameUnit .rb s s') : SameOutcome .rb s s' (execRbPop s) (execRbPop s') := by
  obtain ⟨hcfg, -, hrb⟩ := sameUnit_rb.1 h
  have hslot : rbPopSlot s' = rbPopSlot s := by simp only [rbPopSlot, hrb]
  simp only [execRbPop, hslot]
  cases rbPopSlot s with
  | none => rfl
  | some c => exact sameOutcome_withByte h rfl fun v => sameOutcome_answered _ (h.setRb (by rw [hcfg, hrb])) rfl

theorem execRbAvail_sameOutcome (h : SameUnit .rb s s') : SameOutcome .rb s s' (execRbAvail s) (execRbAvail s') := by
  obtain ⟨hcfg, -, hrb⟩ := sameUnit_rb.1 h
  exact sameOutcome_answered _ h (by rw [hcfg, hrb])

theorem execRbIsEmpty_sameOutcome (h : SameUnit .rb s s') : SameOutcome .rb s s' (execRbIsEmpty s) (execRbIsEmpty s') := by
  obtain ⟨-, -, hrb⟩ := sameUnit_rb.1 h
  exact sameOutcome_answered _ h (by rw [hrb])

theorem execRbIsFull_sameOutcome (h : SameUnit .rb s s') : SameOutcome .rb s s' (execRbIsFull s) (execRbIsFull s') := by
  obtain ⟨hcfg, -, hrb⟩ := sameUnit_rb.1 h
  exact sameOutcome_answered _ h (by rw [hcfg, hrb])

/-! #### Unit TX -/

theorem execTxEnq_sameOutcome (b : Byte) (h : SameUnit .tx s s') : SameOutcome .tx s s' (execTxEnq b s) (execTxEnq b s') := by
  obtain ⟨hcfg, -, htx⟩ := sameUnit_tx.1 h
  have hslot : txEnqSlot s' = txEnqSlot s := by simp only [txEnqSlot, hcfg, htx]
  simp only [execTxEnq, hslot]
  cases txEnqSlot s with
  | none => exact sameOutcome_answered _ h rfl
  | some c =>
    refine sameOutcome_store h fun m => sameOutcome_answered _ ((h.setMem m).setTx ?_) rfl
    simp [State.setMem, hcfg, htx]

theorem txStartBody_sameUnit (h : SameUnit .tx s s') :
    (txStartBody s').1 = (txStartBody s).1 ∧ SameUnit .tx (txStartBody s).2 (txStartBody s').2 := by
  obtain ⟨hcfg, -, htx⟩ := sameUnit_tx.1 h
  rw [txStartBody_eq, txStartBody_eq, hcfg, htx]
  split
  · exact ⟨rfl, h⟩
  · split
    · exact ⟨rfl, h⟩
    · exact ⟨rfl, h.setTx rfl⟩

theorem txStartBody_answers (s : State) : (txStartBody s).2.answers = s.answers := by
  rw [txStartBody_eq]
  split
  · rfl
  · split <;> rfl

theorem execTxStart_sameOutcome (h : SameUnit .tx s s') : SameOutcome .tx s s' (execTxStart s) (execTxStart s') := by
  obtain ⟨hst, hbody⟩ := txStartBody_sameUnit h
  simp only [execTxStart, hst]
  exact sameOutcome_answered _ hbody rfl (txStartBody_answers s) (txStartBody_answers s')

theorem execTxEvt_sameOutcome (h : SameUnit .tx s s') : SameOutcome .tx s s' (execTxEvt s) (execTxEvt s') := by
  obtain ⟨-, -, htx⟩ := sameUnit_tx.1 h
  have hack : SameUnit .tx (txAcknowledge s) (txAcknowledge s') := h.setTx (by rw [htx])
  obtain ⟨-, hbody⟩ := txStartBody_sameUnit hack
  exact sameOutcome_ite (by rw [htx])
    (fun _ => sameOutcome_answered _ hbody rfl (txStartBody_answers (txAcknowledge s)) (txStartBody_answers (txAcknowledge s')))
    fun _ => sameOutcome_answered _ h rfl

/-! #### Unit RX -/

theorem execRxStart_sameOutcome (h : SameUnit .rx s s') : SameOutcome .rx s s' (execRxStart s) (execRxStart s') := by
  obtain ⟨hcfg, -, hrx⟩ := sameUnit_rx.1 h
  cases hrun : s.rx.run with
  | true =>
    rw [execRxStart_running hrun, execRxStart_running (by rw [hrx, hrun])]
    rfl
  | false =>
    rw [execRxStart_stopped hrun, execRxStart_stopped (by rw [hrx, hrun])]
    exact sameOutcome_answered _ (h.setRx (by rw [hcfg, hrx])) rfl

theorem execRxStop_sameOutcome (h : SameUnit .rx s s') : SameOutcome .rx s s' (execRxStop s) (execRxStop s') := by
  obtain ⟨-, -, hrx⟩ := sameUnit_rx.1 h
  exact sameOutcome_answered _ (h.setRx (by rw [hrx])) rfl

theorem execRxAvail_sameOutcome (h : SameUnit .rx s s') : SameOutcome .rx s s' (execRxAvail s) (execRxAvail s') := by
  obtain ⟨hcfg, -, hrx⟩ := sameUnit_rx.1 h
  exact sameOutcome_answered _ h (by rw [hcfg, hrx])

theorem execRxRead_sameOutcome (h : SameUnit .rx s s') : SameOutcome .rx s s' (execRxRead s) (execRxRead s') := by
  obtain ⟨hcfg, -, hrx⟩ := sameUnit_rx.1 h
  exact sameOutcome_withByte h (by rw [hrx]) fun v => sameOutcome_answered _ (h.setRx (by rw [hcfg, hrx])) rfl

/-! #### Unit LED -/

theorem ledStoreRun_sameUnit (h : SameUnit .led s s') (base : Nat) (codes : List Byte) :
    SameUnit .led (ledStoreRun base codes s) (ledStoreRun base codes s') := by
  obtain ⟨-, -, hled⟩ := sameUnit_led.1 h
  exact h.setLed (by rw [hled])

theorem ledStoreRun_answers (base : Nat) (codes : List Byte) (s : State) : (ledStoreRun base codes s).answers = s.answers := rfl

theorem execLedClear_sameOutcome (h : SameUnit .led s s') : SameOutcome .led s s' (execLedClear s) (execLedClear s') := by
  obtain ⟨hcfg, -⟩ := id h
  simp only [execLedClear, hcfg]
  exact sameOutcome_answered _ (ledStoreRun_sameUnit h _ _) rfl

theorem execLedWrite_sameOutcome (idx : BitVec 16) (c : Colour) (h : SameUnit .led s s') :
    SameOutcome .led s s' (execLedWrite idx c s) (execLedWrite idx c s') := by
  obtain ⟨hcfg, -⟩ := id h
  have hstored := ledStoreRun_sameUnit h (ledIndex idx.toNat 0) (colourCodes s.cfg c)
  unfold execLedWrite
  rw [hcfg]
  exact sameOutcome_ite Iff.rfl
    (fun _ => sameOutcome_answered _ hstored rfl (ledStoreRun_answers _ _ s) (ledStoreRun_answers _ _ s'))
    fun _ => sameOutcome_answered _ h rfl

theorem execLedUpdate_sameOutcome (h : SameUnit .led s s') : SameOutcome .led s s' (execLedUpdate s) (execLedUpdate s') := by
  obtain ⟨hcfg, -, hled⟩ := sameUnit_led.1 h
  have hstarts : ledUpdateStarts s' = ledUpdateStarts s := by simp only [ledUpdateStarts, hcfg, hled]
  rw [execLedUpdate_eq, execLedUpdate_eq, hstarts, hcfg, hled]
  exact sameOutcome_ite Iff.rfl (fun _ => sameOutcome_answered _ (SameUnit.emitLed (h.setLed rfl) .frame) rfl)
    fun _ => sameOutcome_answered _ h rfl

theorem execLedEvt_sameOutcome (h : SameUnit .led s s') : SameOutcome .led s s' (execLedEvt s) (execLedEvt s') := by
  obtain ⟨hcfg, -, hled⟩ := sameUnit_led.1 h
  exact sameOutcome_ite (by rw [hled]) (fun _ => sameOutcome_answered _ (h.setLed (by rw [hcfg, hled])) rfl)
    fun _ => sameOutcome_answered _ h rfl

theorem exec_sameOutcome (i : Instr) (h : SameUnit (unitOf i) s s') : SameOutcome (unitOf i) s s' (exec i s) (exec i s') := by
  cases i with
  | rbPush b => exact execRbPush_sameOutcome b h
  | rbPop => exact execRbPop_sameOutcome h
  | rbAvail => exact execRbAvail_sameOutcome h
  | rbIsEmpty => exact execRbIsEmpty_sameOutcome h
  | rbIsFull => exact execRbIsFull_sameOutcome h
  | txEnq b => exact execTxEnq_sameOutcome b h
  | txStart => exact execTxStart_sameOutcome h
  | txEvt => exact execTxEvt_sameOutcome h
  | rxStart => exact execRxStart_sameOutcome h
  | rxStop => exact execRxStop_sameOutcome h
  | rxAvail => exact execRxAvail_sameOutcome h
  | rxRead => exact execRxRead_sameOutcome h
  | ledClear => exact execLedClear_sameOutcome h
  | ledWrite idx c => exact execLedWrite_sameOutcome idx c h
  | ledUpdate => exact execLedUpdate_sameOutcome h
  | ledEvt => exact execLedEvt_sameOutcome h

end

end Sys2Proof.Machine

namespace Sys2Proof.Proofs
open Sys2Proof.Machine

/-- Settles O50: `exec_onlyUnit`, and the bytes of the other units with it. -/
theorem operationsWriteTheirOwnUnit : Obligations.OperationsWriteTheirOwnUnit := by
  intro s t i hexec
  have honly : OnlyUnit (unitOf i) s t := (exec_onlyUnit i s).of_next hexec
  exact ⟨honly, fun u j hu => byteAt_of_onlyUnit honly hu j⟩

/-- Settles O51 by `exec_sameOutcome`. -/
theorem operationsReadTheirOwnUnit : Obligations.OperationsReadTheirOwnUnit := by
  intro s s' i hsame
  have hout := exec_sameOutcome i hsame
  exact ⟨fun t ht => (ht ▸ hout).of_next, fun f hf => (hf ▸ hout).of_fault, fun q hq => (hq ▸ hout).of_refused⟩

end Sys2Proof.Proofs
end

section
/-! SUPPORT. Every change of a flag is one the table of flags lists (R43). -/

namespace Sys2Proof.Machine

/-- The flags of R43: `TX.active`, `TX.tc`, `RX.run`, and of `LED` the frame in flight, `tc` and the two enables. -/
structure Flags where
  active : Bool
  tc : Bool
  run : Bool
  inflight : Bool
  ledTc : Bool
  xferEn : Bool
  genEn : Bool

def State.flags (s : State) : Flags :=
  { active := s.tx.active, tc := s.tx.tc, run := s.rx.run, inflight := s.led.inflight, ledTc := s.led.tc,
    xferEn := s.led.xferEn, genEn := s.led.genEn }

/-- What an operation can make of the flags, by the rows of R43. `again` says whether `TX.EVT` starts the next run (R149). -/
inductive FlagChange (s t : State) : Instr → Prop
  | unchanged {i : Instr} (h : t.flags = s.flags) : FlagChange s t i
  | txStart (hs : s.tx.active = false) (h : t.flags = { s.flags with active := true }) : FlagChange s t .txStart
  | txEvt (again : Bool) (hs : s.tx.tc = true) (h : t.flags = { s.flags with active := again, tc := false }) :
      FlagChange s t .txEvt
  | rxStart (hs : s.rx.run = false) (h : t.flags = { s.flags with run := true }) : FlagChange s t .rxStart
  | rxStop (h : t.flags = { s.flags with run := false }) : FlagChange s t .rxStop
  | ledUpdate (hs : s.led.inflight = false)
      (h : t.flags = { s.flags with inflight := true, xferEn := true, genEn := true }) : FlagChange s t .ledUpdate
  | ledEvt (hs : s.led.tc = true)
      (h : t.flags = { s.flags with inflight := false, ledTc := false, xferEn := false, genEn := false }) :
      FlagChange s t .ledEvt

theorem flags_answer (s : State) (st : Status) (v : BitVec 16) : (s.answer st v).flags = s.flags := rfl

theorem ledStoreRun_flags (base : Nat) (codes : List Byte) (s : State) : (ledStoreRun base codes s).flags = s.flags := rfl

theorem execTxStart_flagChange (s : State) : LeadsTo (fun t => FlagChange s t .txStart) (execTxStart s) := by
  unfold execTxStart
  rw [txStartBody_eq]
  split
  · exact .unchanged rfl
  · split
    · exact .unchanged rfl
    · exact .txStart (Bool.eq_false_of_not_eq_true ‹_›) rfl

theorem execTxEvt_flagChange (s : State) : LeadsTo (fun t => FlagChange s t .txEvt) (execTxEvt s) := by
  rw [execTxEvt_eq]
  exact leadsTo_ite (fun htc => leadsTo_ite (fun _ => .txEvt false htc rfl) fun _ => .txEvt true htc rfl)
    fun _ => .unchanged rfl

theorem exec_flagChange (i : Instr) (s : State) : LeadsTo (fun t => FlagChange s t i) (exec i s) := by
  cases i with
  | rbPush b =>
    simp only [exec, execRbPush]
    cases rbPushSlot s with
    | none => exact .unchanged rfl
    | some c => exact leadsTo_store fun _ => .unchanged rfl
  | rbPop =>
    simp only [exec, execRbPop]
    cases rbPopSlot s with
    | none => trivial
    | some c => exact leadsTo_withByte fun _ _ => .unchanged rfl
  | txEnq b =>
    simp only [exec, execTxEnq]
    cases txEnqSlot s with
    | none => exact .unchanged rfl
    | some c => exact leadsTo_store fun _ => .unchanged rfl
  | txStart => exact execTxStart_flagChange s
  | txEvt => exact execTxEvt_flagChange s
  | rxStart => exact leadsTo_ite (fun _ => trivial) fun hstopped => .rxStart (Bool.eq_false_of_not_eq_true hstopped) rfl
  | rxStop => exact .rxStop rfl
  | rxRead =>
    simp only [exec, execRxRead, rxReadLoad]
    exact leadsTo_withByte fun _ _ => .unchanged rfl
  | ledWrite idx c => exact leadsTo_ite (fun _ => .unchanged ((flags_answer _ _ _).trans (ledStoreRun_flags _ _ s))) fun _ => .unchanged rfl
  | ledUpdate =>
    rw [exec, execLedUpdate_eq]
    exact leadsTo_ite (fun hstarts => .ledUpdate (ledUpdateStarts_inflight hstarts) rfl) fun _ => .unchanged rfl
  | ledEvt => exact leadsTo_ite (fun htc => .ledEvt htc rfl) fun _ => .unchanged rfl
  | rbAvail | rbIsEmpty | rbIsFull | rxAvail | ledClear => exact .unchanged rfl

theorem xtxStep_flags (s : State) :
    LeadsTo (fun t => t.tx.active = s.tx.active ∧ (s.tx.tc = true → t.tx.tc = true) ∧ t.rx = s.rx ∧ t.led = s.led) (xtxStep s) :=
  leadsTo_ite (fun _ => leadsTo_withByte fun _ _ => ⟨rfl, fun htc => by simp [txDescriptorStep, htc], rfl, rfl⟩)
    fun _ => ⟨rfl, id, rfl, rfl⟩

theorem xrxStep_flags (s : State) : LeadsTo (fun t => t.rx.run = s.rx.run ∧ t.tx = s.tx ∧ t.led = s.led) (xrxStep s) := by
  unfold xrxStep
  split
  · exact leadsTo_store fun _ => ⟨rfl, rfl, rfl⟩
  · exact ⟨rfl, rfl, rfl⟩
  · exact ⟨rfl, rfl, rfl⟩

theorem xledStep_flags (s : State) :
    LeadsTo (fun t => t.led.inflight = s.led.inflight ∧ t.led.xferEn = s.led.xferEn ∧ t.led.genEn = s.led.genEn ∧
      (s.led.tc = true → t.led.tc = true) ∧ t.tx = s.tx ∧ t.rx = s.rx) (xledStep s) :=
  leadsTo_ite
    (fun _ => leadsTo_withByte fun _ _ => ⟨rfl, rfl, rfl, fun htc => by simp [ledDescriptorStep, htc], rfl, rfl⟩)
    fun _ => ⟨rfl, rfl, rfl, id, rfl, rfl⟩

end Sys2Proof.Machine

namespace Sys2Proof.Proofs
open Sys2Proof.Machine

/-- Settles O49: the rows of `FlagChange` for the operations, and a lemma for each engine. -/
theorem flagsChangeOnlyAsTheTableSays : Obligations.FlagsChangeOnlyAsTheTableSays := by
  refine ⟨fun s t i hexec => ?_, fun s t h => (xtxStep_flags s).of_next h, fun s t h => (xrxStep_flags s).of_next h,
    fun s t h => (xledStep_flags s).of_next h⟩
  have hchange : FlagChange s t i := (exec_flagChange i s).of_next hexec
  cases hchange with
  | unchanged h => simp only [State.flags, Flags.mk.injEq] at h; simp [h]
  | txStart hs h => simp only [State.flags, Flags.mk.injEq] at h; simp [h, hs]
  | txEvt again hs h => simp only [State.flags, Flags.mk.injEq] at h; simp [h, hs]
  | rxStart hs h => simp only [State.flags, Flags.mk.injEq] at h; simp [h, hs]
  | rxStop h => simp only [State.flags, Flags.mk.injEq] at h; simp [h]
  | ledUpdate hs h => simp only [State.flags, Flags.mk.injEq] at h; simp [h, hs]
  | ledEvt hs h => simp only [State.flags, Flags.mk.injEq] at h; simp [h, hs]

end Sys2Proof.Proofs
end

section
/-! SUPPORT. The slots in flight and the resident slots of `TX` (R29), a loaded command (R41, R73), and what a reset leaves (R48). -/

namespace Sys2Proof.Machine

/-- Of `n` slots in a ring, the `c` from `a` up to `t` and the `d` from `t` on are disjoint as long as `c + d ≤ n`: the slot `t + j` is
`c + j - i` places behind `a + i`, which is more than none and less than once round. -/
theorem ringSlots_disjoint {n a c t d i j : Nat} (hplace : (a + c) % n = t) (htotal : c + d ≤ n) (hi : i < c) (hj : j < d) :
    a + i ≠ (t + j) % n := by
  intro heq
  have hmod : a + i ≡ a + (c + j) [MOD n] :=
    calc (a + i) % n = ((a + c) % n + j) % n := by rw [heq, Nat.mod_mod, hplace]
      _ = (a + (c + j)) % n := by rw [Nat.mod_add_mod, Nat.add_assoc]
  have hdvd : n ∣ c + j - i := (Nat.modEq_iff_dvd' (by omega)).1 (Nat.ModEq.add_left_cancel' a hmod)
  have hle : n ≤ c + j - i := Nat.le_of_dvd (by omega) hdvd
  omega

end Sys2Proof.Machine

namespace Sys2Proof.Proofs
open Sys2Proof.Machine

/-- Settles O30: the run lies before `TX.tail` (R29(d)), the resident slots from it on. -/
theorem inFlightAndResidentSlotsDisjoint : Obligations.InFlightAndResidentSlotsDisjoint := by
  intro s hinv hout hactive htotal i j hi hj
  obtain ⟨-, -, -, -, -, hflags, -⟩ := hinv
  obtain ⟨-, -, -, hrun⟩ := hflags hout
  obtain ⟨-, hplace⟩ := hrun hactive
  exact ringSlots_disjoint hplace htotal hi hj

/-- Settles O8: the turn for a whole operation comes first, and the loaded word is the next of the program. -/
theorem loadedCommandRunsNext : Obligations.LoadedCommandRunsNext := by
  intro s nbits w i hdecode
  have hdec : decode (s.setHost .idle).cfg (tableWord nbits w) = .instr i := hdecode
  calc step (s.withFetchWord nbits w)
      = hostOpTurn ((s.withFetchWord nbits w).setSched s.sched) := step_turn (turn := .hostOp) rfl
    _ = present (tableWord nbits w) (s.setHost .idle) := hostOpTurn_idle (ws := s.program) rfl rfl
    _ = exec i (s.setHost .idle) := by rw [present, hdec]

/-- Settles O53: the values of `State.resetWith`; nothing is listed in a memory, so every byte is the new free draw. -/
theorem resetLeavesTheListedValues : Obligations.ResetLeavesTheListedValues := by
  intro s rest hcfg hsched
  obtain ⟨-, -, ⟨-, hn⟩, -⟩ := hcfg
  have hrem : (BitVec.ofNat 16 s.cfg.nRx).toNat = s.cfg.nRx := cursor_toNat (by omega)
  refine ⟨envReset (s.setSched rest), step_turn hsched, rfl, rfl, rfl, rfl, rfl, rfl, rfl, rfl, rfl, rfl, rfl, hrem, rfl, rfl,
    rfl, rfl, rfl, rfl, rfl, rfl, rfl, rfl, fun u j => ?_, Nat.succ_ne_self s.epoch⟩
  cases u <;> rfl

end Sys2Proof.Proofs
end

section
/-! SUPPORT. A step seen from `HOST`, from an event and from an agent with nothing to do (R72 to R75), and the stores of the
encoder one micro-step at a time (R67, R68). -/

namespace Sys2Proof.Machine

/-! ### The words of the encoder's two operations -/

/-- The opcode byte of an operation's word is the operation's (R91). -/
@[simp] theorem opcodeByte_encode (i : Instr) : opcodeByte (encode i) = i.opcode := by
  rw [opcodeByte, encode, BitVec.append_assoc]
  exact BitVec.extractLsb'_append_eq_left

/-- The `idx` field of an operation's word is the operation's (R91). -/
@[simp] theorem idxField_encode (i : Instr) : idxField (encode i) = i.idxBits :=
  (BitVec.extractLsb'_append_eq_of_le (Nat.le_refl 24)).trans BitVec.extractLsb'_append_eq_right

/-- The `data` field of an operation's word is the operation's (R91). -/
@[simp] theorem dataField_encode (i : Instr) : dataField (encode i) = i.dataBits :=
  BitVec.extractLsb'_append_eq_right

theorem decode_encode_ledClear (cfg : Config) : decode cfg (encode .ledClear) = .instr .ledClear := rfl

theorem decode_encode_ledWrite {cfg : Config} {idx : BitVec 16} (c : Colour) (hidx : idx.toNat < cfg.stripLength) :
    decode cfg (encode (.ledWrite idx c)) = .instr (.ledWrite idx c) := by
  have hop : (opcodeByte (encode (.ledWrite idx c))).toNat = 0x31 := by rw [opcodeByte_encode]; rfl
  simp only [decode, hop, formatC, idxField_encode, dataField_encode, Instr.idxBits, Instr.dataBits, hidx, if_true]

/-! ### The turns of `HOST` -/

/-- `HOST`, idle with a word to present that decodes, takes the first micro-step of its operation. -/
theorem step_host_begins {s : State} {w : Cmd} {ws : List Cmd} {rest : List Turn} {i : Instr} (hsched : s.sched = .host :: rest)
    (hidle : s.host = .idle) (hprog : s.program = w :: ws) (hdecode : decode s.cfg w = .instr i) :
    step s = hostBegin i ((s.setSched rest).setProgram ws) := by
  have hdec : decode ((s.setSched rest).setProgram ws).cfg w = .instr i := hdecode
  calc step s
      = hostTurn (s.setSched rest) := step_turn hsched
    _ = presentFirst w ((s.setSched rest).setProgram ws) := hostTurn_idle hidle hprog
    _ = hostBegin i ((s.setSched rest).setProgram ws) := by rw [presentFirst, hdec]

/-- `HOST`, inside an operation, takes the micro-step it stands before. -/
theorem step_host_inside {s : State} {p : HostPos} {rest : List Turn} (hsched : s.sched = .host :: rest) (hp : s.host = p)
    (hinside : p ≠ .idle) : step s = hostMicro p (s.setSched rest) := by
  subst hp
  exact (step_turn hsched).trans (hostTurn_inside (s := s.setSched rest) hinside)

/-- `HOST`, idle with nothing to present, passes its turn. -/
theorem hostTurn_nothing {s : State} (hidle : s.host = .idle) (hprog : s.program = []) : hostTurn s = .next s := by
  simp [hostTurn, hidle, hprog]

/-- `HOST` with nothing to present passes its turn for a whole operation, wherever it stands. -/
theorem hostOpTurn_nothing {s : State} (hprog : s.program = []) : hostOpTurn s = .next s := by
  simp [hostOpTurn, hprog]

/-! ### The handlers always answer, and leave `HOST` where it stands (R74) -/

theorem execTxEvt_answers (s : State) : ∃ t, execTxEvt s = .next t ∧ t.host = s.host := by
  rw [execTxEvt_eq]
  split
  · split
    · exact ⟨_, rfl, rfl⟩
    · exact ⟨_, rfl, rfl⟩
  · exact ⟨_, rfl, rfl⟩

theorem execLedEvt_answers (s : State) : ∃ t, execLedEvt s = .next t ∧ t.host = s.host := by
  rw [execLedEvt_eq]
  split
  · exact ⟨_, rfl, rfl⟩
  · exact ⟨_, rfl, rfl⟩

/-! ### One store of the encoder -/

/-- From `s` to `t` a micro-step of the encoder stores `code` at index `i`: no other byte, and of `LED` no register, flag or mark,
changes. While there are `more` stores to make, `HOST` stands before the next one; else the operation returns `Ok`. -/
structure EncoderStores (i : Nat) (code : Byte) (more : Prop) (next : HostPos) (s t : State) : Prop where
  stored : byteAt t .led i = code
  others : BytesSameBut .led i s t
  registers : t.led = { s.led with enc := t.led.enc }
  marks : t.ledOut = s.ledOut
  program : t.program = s.program
  goesOn : more → t.host = next ∧ t.answers = s.answers
  returns : ¬ more → t.host = .idle ∧ Answers s t .ok 0#16

theorem encoderMicro_stores {pos : Nat → HostPos} {code : Nat → Byte} {base total j : Nat} {s : State}
    (hsize : base + j < s.cfg.frameBytes) :
    ∃ t, encoderMicro pos code base total j s = .next t ∧
      EncoderStores (base + j) (code j) (j + 1 < total) (pos (j + 1)) s t := by
  rw [encoderMicro, storeByte_inside (u := .led) _ hsize, andThen_next]
  by_cases hmore : j + 1 < total
  · rw [if_pos hmore]
    exact ⟨_, rfl,
      { stored := by rw [byteAt_setHost, byteAt_store, if_pos ⟨rfl, rfl⟩]
        others := fun u k hne => by rw [byteAt_setHost, byteAt_store, if_neg hne]
        registers := rfl
        marks := rfl
        program := rfl
        goesOn := fun _ => ⟨rfl, rfl⟩
        returns := fun hlast => absurd hmore hlast }⟩
  · rw [if_neg hmore]
    exact ⟨_, rfl,
      { stored := by rw [byteAt_answer, byteAt_setHost, byteAt_store, if_pos ⟨rfl, rfl⟩]
        others := fun u k hne => by rw [byteAt_answer, byteAt_setHost, byteAt_store, if_neg hne]
        registers := rfl
        marks := rfl
        program := rfl
        goesOn := fun h => absurd h hmore
        returns := fun _ => ⟨rfl, rfl⟩ }⟩

theorem ledWriteMicro_stores {idx : BitVec 16} (c : Colour) {b : Nat} {s : State} (hidx : idx.toNat < s.cfg.stripLength)
    (hb : b < 24) :
    ∃ t, ledWriteMicro idx c b s = .next t ∧
      EncoderStores (24 * idx.toNat + b) (colourCode s.cfg c b) (b + 1 < 24) (.ledWriteAt idx c (b + 1)) s t := by
  rw [ledWriteMicro_eq]
  exact encoderMicro_stores (ledIndex_lt hidx hb)

theorem ledClearMicro_stores {i : Nat} {s : State} (hi : i < s.cfg.frameBytes) :
    ∃ t, ledClearMicro i s = .next t ∧
      EncoderStores i s.cfg.code0 (i + 1 < s.cfg.frameBytes) (.ledClearAt (i + 1)) s t := by
  have hsize : 0 + i < s.cfg.frameBytes := by omega
  have hstores := encoderMicro_stores (pos := .ledClearAt) (code := fun _ => s.cfg.code0) (total := s.cfg.frameBytes) hsize
  rwa [Nat.zero_add, ← ledClearMicro_eq hi] at hstores

end Sys2Proof.Machine

namespace Sys2Proof.Proofs
open Sys2Proof.Machine

/-- Settles O7: the turn at the head of the schedule is `HOST`'s for a whole operation, and the word presented decodes to `i`. -/
theorem stepRunsTheDecodedCommand : Obligations.StepRunsTheDecodedCommand := by
  intro s w ws rest i hsched hidle hprog hdecode
  have hdec : decode ((s.setSched rest).setProgram ws).cfg w = .instr i := hdecode
  calc step s
      = hostOpTurn (s.setSched rest) := step_turn hsched
    _ = present w ((s.setSched rest).setProgram ws) := hostOpTurn_idle hidle hprog
    _ = exec i ((s.setSched rest).setProgram ws) := by rw [present, hdec]

/-- Settles O9: each entry word decodes to its handler, and a handler always answers. -/
theorem eventTurnRunsTheHandler : Obligations.EventTurnRunsTheHandler := by
  intro s e rest hsched
  rw [step_turn hsched]
  cases e with
  | tx =>
    obtain ⟨t, hexec, hhost⟩ := execTxEvt_answers (s.setSched rest)
    exact ⟨t, (present_txEvt _).trans hexec, hexec, hhost⟩
  | led =>
    obtain ⟨t, hexec, hhost⟩ := execLedEvt_answers (s.setSched rest)
    exact ⟨t, (present_ledEvt _).trans hexec, hexec, hhost⟩

/-- Settles O12, agent by agent: each passes when what enables its step is missing. -/
theorem disabledTurnsPass : Obligations.DisabledTurnsPass := by
  intro s turn rest hsched hdisabled
  rw [step_turn hsched]
  obtain ⟨rfl, h⟩ | ⟨rfl, h⟩ | ⟨rfl, h⟩ | ⟨rfl | rfl, hidle, hprog⟩ := hdisabled
  · exact xtxStep_disabled h
  · exact xrxStep_disabled h
  · exact xledStep_disabled h
  · exact hostTurn_nothing hidle hprog
  · exact hostOpTurn_nothing hprog

/-- Settles O41: each micro-step is one of `ledWriteMicro_stores` or `ledClearMicro_stores`, at an index that the presented word or
the invariant of `HOST`'s position bounds. -/
theorem encoderStoresOneByteAMicroStep : Obligations.EncoderStoresOneByteAMicroStep := by
  intro s rest hinv hsched
  obtain ⟨⟨-, -, -, ⟨hstrip, -⟩, -⟩, -, -, -, -, -, -, hok⟩ := hinv
  refine ⟨?firstWrite, ?firstClear, ?write, ?clear⟩
  case firstWrite =>
    intro idx c ws hidle hprog hidx
    obtain ⟨t, hmicro, h⟩ := ledWriteMicro_stores (b := 0) (s := (s.setSched rest).setProgram ws) c hidx (by decide)
    have hstep : step s = .next t :=
      calc step s
          = hostBegin (.ledWrite idx c) ((s.setSched rest).setProgram ws) :=
            step_host_begins hsched hidle hprog (decode_encode_ledWrite c hidx)
        _ = ledWriteMicro idx c 0 ((s.setSched rest).setProgram ws) := if_pos hidx
        _ = .next t := hmicro
    obtain ⟨hhost, hanswers⟩ := h.goesOn (by decide)
    exact ⟨t, hstep, h.stored, h.others, h.registers, h.marks, hhost, h.program, hanswers⟩
  case firstClear =>
    intro ws hidle hprog
    have hsize : 0 + 1 < s.cfg.frameBytes := by unfold Config.frameBytes; omega
    obtain ⟨t, hmicro, h⟩ := ledClearMicro_stores (s := (s.setSched rest).setProgram ws) (Nat.lt_of_succ_lt hsize)
    have hstep : step s = .next t :=
      (step_host_begins hsched hidle hprog (decode_encode_ledClear s.cfg)).trans hmicro
    obtain ⟨hhost, hanswers⟩ := h.goesOn hsize
    exact ⟨t, hstep, h.stored, h.others, h.registers, h.marks, hhost, h.program, hanswers⟩
  case write =>
    intro idx c b hp
    rw [← setHost_of_host_eq hp] at hok
    obtain ⟨hidx, hb⟩ := hostOk_ledWriteAt.1 hok
    obtain ⟨t, hmicro, h⟩ := ledWriteMicro_stores (s := s.setSched rest) c hidx hb
    have hstep : step s = .next t := (step_host_inside hsched hp nofun).trans hmicro
    exact ⟨t, hstep, h.stored, h.others, h.registers, h.marks, fun hmore => h.goesOn (by omega),
      fun hlast => h.returns (by omega)⟩
  case clear =>
    intro i hp
    rw [← setHost_of_host_eq hp] at hok
    obtain ⟨t, hmicro, h⟩ := ledClearMicro_stores (s := s.setSched rest) (hostOk_ledClearAt.1 hok)
    have hstep : step s = .next t := (step_host_inside hsched hp nofun).trans hmicro
    exact ⟨t, hstep, h.stored, h.others, h.registers, h.marks, h.goesOn, fun hlast => h.returns (Nat.not_lt_of_ge hlast.ge)⟩

end Sys2Proof.Proofs
end

section
/-! SUPPORT. The fields of a command word (R91), what a format makes of them (R92, R99, R100), and which row reads a word (R96 to R98). -/

namespace Sys2Proof
open Sys2Proof.Machine

/-! ### A word is its three fields -/

theorem fields_append (w : Cmd) : opcodeByte w ++ idxField w ++ dataField w = w := by
  have h : opcodeByte w ++ idxField w = w.extractLsb' 24 24 := BitVec.extractLsb'_append_extractLsb'_eq_extractLsb' rfl
  rw [h]
  exact BitVec.extractLsb'_append_extractLsb' (w := 24) (len := 24)

theorem encode_eq_of_fields {w : Cmd} {i : Instr} (hop : opcodeByte w = i.opcode) (hidx : idxField w = i.idxBits)
    (hdata : dataField w = i.dataBits) : encode i = w := by
  rw [encode, ← hop, ← hidx, ← hdata]
  exact fields_append w

theorem byteField_eq (w : Cmd) : byteField w = (dataField w).extractLsb' 0 8 :=
  (BitVec.extractLsb'_extractLsb'_of_le (by decide)).symm

theorem append_eq_zero_iff {m n : Nat} {a : BitVec m} {b : BitVec n} : a ++ b = 0#(m + n) ↔ a = 0#m ∧ b = 0#n := by
  constructor
  · intro h
    have hleft := congrArg (BitVec.extractLsb' n m) h
    have hright := congrArg (BitVec.extractLsb' 0 n) h
    rw [BitVec.extractLsb'_append_eq_left, BitVec.extractLsb'_zero] at hleft
    rw [BitVec.extractLsb'_append_eq_right, BitVec.extractLsb'_zero] at hright
    exact ⟨hleft, hright⟩
  · rintro ⟨rfl, rfl⟩
    exact BitVec.zero_append_zero

/-- Format `N` asks that both operand fields be zero. -/
theorem operandBits_eq_zero_iff {w : Cmd} : w.extractLsb' 0 40 = 0#40 ↔ idxField w = 0#16 ∧ dataField w = 0#24 := by
  have h : idxField w ++ dataField w = w.extractLsb' 0 40 := BitVec.extractLsb'_append_extractLsb'_eq_extractLsb' rfl
  rw [← h]
  exact append_eq_zero_iff

/-- Format `B` asks that the `idx` field be zero and the `data` field hold the byte and nothing above it. -/
theorem aboveByte_eq_zero_iff {w : Cmd} :
    w.extractLsb' 8 32 = 0#32 ↔ idxField w = 0#16 ∧ dataField w = (byteField w).setWidth 24 := by
  have h : idxField w ++ w.extractLsb' 8 16 = w.extractLsb' 8 32 := BitVec.extractLsb'_append_extractLsb'_eq_extractLsb' rfl
  have hdata : w.extractLsb' 8 16 ++ byteField w = dataField w := BitVec.extractLsb'_append_extractLsb'_eq_extractLsb' rfl
  have hbyte : (byteField w).setWidth 24 = 0#16 ++ byteField w := BitVec.setWidth_eq_append (by decide)
  rw [← h, hbyte, ← hdata]
  exact append_eq_zero_iff.trans (and_congr_right fun _ => (BitVec.append_left_inj _).symm)

/-! ### What a format makes of a word -/

theorem formatN_eq_instr_iff {w : Cmd} {i j : Instr} :
    formatN w i = .instr j ↔ (idxField w = 0#16 ∧ dataField w = 0#24) ∧ i = j := by
  rw [formatN, ← operandBits_eq_zero_iff]
  split <;> simp [*]

theorem formatB_eq_instr_iff {w : Cmd} {f : Byte → Instr} {j : Instr} :
    formatB w f = .instr j ↔ (idxField w = 0#16 ∧ dataField w = (byteField w).setWidth 24) ∧ f (byteField w) = j := by
  rw [formatB, ← aboveByte_eq_zero_iff]
  split <;> simp [*]

theorem formatC_eq_instr_iff {cfg : Config} {w : Cmd} {f : BitVec 16 → Colour → Instr} {j : Instr} :
    formatC cfg w f = .instr j ↔ (idxField w).toNat < cfg.stripLength ∧ f (idxField w) (dataField w) = j := by
  rw [formatC]
  split <;> simp [*]

theorem formatN_eq_operandFieldNotZero_iff {w : Cmd} {i : Instr} :
    formatN w i = .illegal .operandFieldNotZero ↔ w.extractLsb' 0 40 ≠ 0#40 := by
  rw [formatN]
  split <;> simp [*]

theorem formatB_eq_operandFieldNotZero_iff {w : Cmd} {f : Byte → Instr} :
    formatB w f = .illegal .operandFieldNotZero ↔ w.extractLsb' 8 32 ≠ 0#32 := by
  rw [formatB]
  split <;> simp [*]

theorem formatN_ne_noSuchOperation {w : Cmd} {i : Instr} : formatN w i ≠ .illegal .noSuchOperation := by
  rw [formatN]
  split <;> simp

theorem formatB_ne_noSuchOperation {w : Cmd} {f : Byte → Instr} : formatB w f ≠ .illegal .noSuchOperation := by
  rw [formatB]
  split <;> simp

theorem formatC_ne_noSuchOperation {cfg : Config} {w : Cmd} {f : BitVec 16 → Colour → Instr} :
    formatC cfg w f ≠ .illegal .noSuchOperation := by
  rw [formatC]
  split <;> simp

/-! ### The rows of each format -/

/-- The operations of format `N`, in the order of the opcode table. -/
def noOperandInstrs : List Instr :=
  [.rbPop, .rbAvail, .rbIsEmpty, .rbIsFull, .txStart, .txEvt, .rxStart, .rxStop, .rxAvail, .rxRead, .ledClear, .ledUpdate, .ledEvt]

/-- The operations of format `B`, which wait for their byte. -/
def byteInstrs : List (Byte → Instr) := [.rbPush, .txEnq]

/-- What an operation of format `N` is in a word, and how a word with its opcode byte is read. -/
structure NoOperand (i : Instr) : Prop where
  idxBits : i.idxBits = 0#16
  dataBits : i.dataBits = 0#24
  wellFormed (cfg : Config) : i.wellFormed cfg = true
  decode {cfg : Config} {w : Cmd} (hop : opcodeByte w = i.opcode) : decode cfg w = formatN w i

/-- What an operation of format `B` is in a word, and how a word with its opcode byte is read. -/
structure ByteOperand (f : Byte → Instr) : Prop where
  opcode (b c : Byte) : (f b).opcode = (f c).opcode
  idxBits (b : Byte) : (f b).idxBits = 0#16
  dataBits (b : Byte) : (f b).dataBits = b.setWidth 24
  wellFormed (cfg : Config) (b : Byte) : (f b).wellFormed cfg = true
  decode {cfg : Config} {w : Cmd} {b : Byte} (hop : opcodeByte w = (f b).opcode) : decode cfg w = formatB w f

theorem noOperand_of_mem {i : Instr} (hi : i ∈ noOperandInstrs) : NoOperand i := by
  fin_cases hi <;> exact
    { idxBits := rfl
      dataBits := rfl
      wellFormed := fun _ => rfl
      decode := fun hop => by rw [Sys2Proof.decode, hop]; rfl }

theorem byteOperand_of_mem {f : Byte → Instr} (hf : f ∈ byteInstrs) : ByteOperand f := by
  fin_cases hf <;> exact
    { opcode := fun _ _ => rfl
      idxBits := fun _ => rfl
      dataBits := fun _ => rfl
      wellFormed := fun _ _ => rfl
      decode := fun hop => by rw [Sys2Proof.decode, hop]; rfl }

theorem decode_ledWriteByte {cfg : Config} {w : Cmd} (hop : opcodeByte w = 0x31#8) : decode cfg w = formatC cfg w .ledWrite := by
  rw [decode, hop]; rfl

/-- Each operation has one of the three formats (R92). -/
theorem format_cases (i : Instr) :
    i ∈ noOperandInstrs ∨ (∃ f ∈ byteInstrs, ∃ b, i = f b) ∨ ∃ idx c, i = .ledWrite idx c := by
  cases i with
  | rbPush b => exact .inr (.inl ⟨.rbPush, by simp [byteInstrs], b, rfl⟩)
  | txEnq b => exact .inr (.inl ⟨.txEnq, by simp [byteInstrs], b, rfl⟩)
  | ledWrite idx c => exact .inr (.inr ⟨idx, c, rfl⟩)
  | _ => exact .inl (by decide)

/-- A word whose opcode byte is no operation's decodes to none (R97, R98). -/
theorem decode_of_no_opcode (cfg : Config) {w : Cmd} (h : ∀ i : Instr, opcodeByte w ≠ i.opcode) :
    decode cfg w = .illegal .noSuchOperation := by
  have hnone {d : Decoded} (i : Instr) (hop : (opcodeByte w).toNat = i.opcode.toNat) : d = .illegal .noSuchOperation :=
    absurd (BitVec.eq_of_toNat_eq hop) (h i)
  unfold decode
  split
  next hop => exact hnone (.rbPush 0#8) hop
  next hop => exact hnone .rbPop hop
  next hop => exact hnone .rbAvail hop
  next hop => exact hnone .rbIsEmpty hop
  next hop => exact hnone .rbIsFull hop
  next hop => exact hnone (.txEnq 0#8) hop
  next hop => exact hnone .txStart hop
  next hop => exact hnone .txEvt hop
  next hop => exact hnone .rxStart hop
  next hop => exact hnone .rxStop hop
  next hop => exact hnone .rxAvail hop
  next hop => exact hnone .rxRead hop
  next hop => exact hnone .ledClear hop
  next hop => exact hnone (.ledWrite 0#16 0#24) hop
  next hop => exact hnone .ledUpdate hop
  next hop => exact hnone .ledEvt hop
  next => rfl

theorem decode_eq_noSuchOperation_iff {cfg : Config} {w : Cmd} :
    decode cfg w = .illegal .noSuchOperation ↔ ∀ i : Instr, opcodeByte w ≠ i.opcode := by
  refine ⟨fun h i hop => ?_, decode_of_no_opcode cfg⟩
  obtain hi | ⟨f, hf, b, rfl⟩ | ⟨idx, c, rfl⟩ := format_cases i
  · rw [(noOperand_of_mem hi).decode hop] at h
    exact formatN_ne_noSuchOperation h
  · rw [(byteOperand_of_mem hf).decode hop] at h
    exact formatB_ne_noSuchOperation h
  · rw [decode_ledWriteByte hop] at h
    exact formatC_ne_noSuchOperation h

/-! ### Decoding and encoding are inverse -/

theorem decode_encode {cfg : Config} {i : Instr} (hwf : i.wellFormed cfg = true) : decode cfg (encode i) = .instr i := by
  obtain hi | ⟨f, hf, b, rfl⟩ | ⟨idx, c, rfl⟩ := format_cases i
  · have hrow := noOperand_of_mem hi
    rw [hrow.decode (opcodeByte_encode i), formatN_eq_instr_iff, idxField_encode, dataField_encode]
    exact ⟨⟨hrow.idxBits, hrow.dataBits⟩, rfl⟩
  · have hrow := byteOperand_of_mem hf
    have hbyte : byteField (encode (f b)) = b := by
      rw [byteField_eq, dataField_encode, hrow.dataBits, BitVec.extractLsb'_setWidth_of_le (by decide), BitVec.extractLsb'_eq_self]
    rw [hrow.decode (opcodeByte_encode (f b)), formatB_eq_instr_iff, idxField_encode, dataField_encode, hbyte]
    exact ⟨⟨hrow.idxBits b, hrow.dataBits b⟩, rfl⟩
  · exact decode_encode_ledWrite c (of_decide_eq_true hwf)

theorem encode_of_decode {cfg : Config} {w : Cmd} {i : Instr} (h : decode cfg w = .instr i) :
    encode i = w ∧ i.wellFormed cfg = true := by
  by_cases hnone : ∀ j : Instr, opcodeByte w ≠ j.opcode
  · rw [decode_of_no_opcode cfg hnone] at h
    cases h
  · push Not at hnone
    obtain ⟨j, hop⟩ := hnone
    obtain hj | ⟨f, hf, b, rfl⟩ | ⟨idx, c, rfl⟩ := format_cases j
    · have hrow := noOperand_of_mem hj
      rw [hrow.decode hop, formatN_eq_instr_iff] at h
      obtain ⟨⟨hidx, hdata⟩, rfl⟩ := h
      exact ⟨encode_eq_of_fields hop (hidx.trans hrow.idxBits.symm) (hdata.trans hrow.dataBits.symm), hrow.wellFormed cfg⟩
    · have hrow := byteOperand_of_mem hf
      rw [hrow.decode hop, formatB_eq_instr_iff] at h
      obtain ⟨⟨hidx, hdata⟩, rfl⟩ := h
      exact ⟨encode_eq_of_fields (hop.trans (hrow.opcode _ _)) (hidx.trans (hrow.idxBits _).symm)
        (hdata.trans (hrow.dataBits _).symm), hrow.wellFormed cfg _⟩
    · rw [decode_ledWriteByte hop, formatC_eq_instr_iff] at h
      obtain ⟨hidx, rfl⟩ := h
      exact ⟨encode_eq_of_fields hop rfl rfl, decide_eq_true hidx⟩

/-! ### The opcode bytes of the table, and the words that have none of them -/

/-- The sixteen opcode bytes of R96, format by format. -/
def opcodeBytes : List (BitVec 8) :=
  noOperandInstrs.map Instr.opcode ++ byteInstrs.map (fun f => (f 0#8).opcode) ++ [0x31#8]

theorem mem_opcodeBytes_iff {op : BitVec 8} : op ∈ opcodeBytes ↔ ∃ i : Instr, op = i.opcode := by
  simp only [opcodeBytes, List.mem_append, List.mem_map, List.mem_singleton]
  constructor
  · rintro ((⟨i, -, rfl⟩ | ⟨f, -, rfl⟩) | rfl)
    · exact ⟨i, rfl⟩
    · exact ⟨f 0#8, rfl⟩
    · exact ⟨.ledWrite 0#16 0#24, rfl⟩
  · rintro ⟨i, rfl⟩
    obtain hi | ⟨f, hf, b, rfl⟩ | ⟨idx, c, rfl⟩ := format_cases i
    · exact .inl (.inl ⟨i, hi, rfl⟩)
    · exact .inl (.inr ⟨f, hf, (byteOperand_of_mem hf).opcode _ _⟩)
    · exact .inr rfl

/-- The unassigned values of the `unit` and `fn` fields (R98), over the 256 opcode bytes. -/
theorem not_mem_opcodeBytes_iff : ∀ op : BitVec 8, op ∉ opcodeBytes ↔
    4 ≤ (op.extractLsb' 4 4).toNat ∨
    (op.extractLsb' 4 4).toNat = 0 ∧ 5 ≤ (op.extractLsb' 0 4).toNat ∨
    (op.extractLsb' 4 4).toNat = 1 ∧ 3 ≤ (op.extractLsb' 0 4).toNat ∨
    (op.extractLsb' 4 4).toNat = 2 ∧ 4 ≤ (op.extractLsb' 0 4).toNat ∨
    (op.extractLsb' 4 4).toNat = 3 ∧ 4 ≤ (op.extractLsb' 0 4).toNat := by
  decide

/-- A field inside the opcode byte is a field of the word: `unit` is bits 7..4 of it, `fn` bits 3..0 (R91). -/
theorem extractLsb'_opcodeByte (w : Cmd) {start len : Nat} (h : start + len ≤ 8) :
    (opcodeByte w).extractLsb' start len = w.extractLsb' (40 + start) len := by
  refine BitVec.eq_of_getLsbD_eq fun j hj => ?_
  have hbyte : start + j < 8 := by omega
  simp [opcodeByte, hj, hbyte, Nat.add_assoc]

/-! ### Rows as match and mask -/

/-- The word of an operation selects its row, and the row's pattern has its opcode byte. -/
theorem encode_selects_row (i : Instr) : Laws.EncodesItsRow.Statement i := by
  cases i with
  | rbPush b => exact Laws.EncodesItsRow.rbPush b
  | rbPop => exact Laws.EncodesItsRow.rbPop
  | rbAvail => exact Laws.EncodesItsRow.rbAvail
  | rbIsEmpty => exact Laws.EncodesItsRow.rbIsEmpty
  | rbIsFull => exact Laws.EncodesItsRow.rbIsFull
  | txEnq b => exact Laws.EncodesItsRow.txEnq b
  | txStart => exact Laws.EncodesItsRow.txStart
  | txEvt => exact Laws.EncodesItsRow.txEvt
  | rxStart => exact Laws.EncodesItsRow.rxStart
  | rxStop => exact Laws.EncodesItsRow.rxStop
  | rxAvail => exact Laws.EncodesItsRow.rxAvail
  | rxRead => exact Laws.EncodesItsRow.rxRead
  | ledClear => exact Laws.EncodesItsRow.ledClear
  | ledWrite idx c => exact Laws.EncodesItsRow.ledWrite idx c
  | ledUpdate => exact Laws.EncodesItsRow.ledUpdate
  | ledEvt => exact Laws.EncodesItsRow.ledEvt

/-- Every row's mask has the whole opcode byte. -/
theorem opcodeByte_rowMask (i : Instr) : opcodeByte i.row.mask = BitVec.allOnes 8 := by
  cases i <;> (simp only [Instr.row]; decide)

/-- A word that selects an operation's row has its opcode byte. -/
theorem opcodeByte_of_selects {w : Cmd} {i : Instr} (h : w &&& i.row.mask = i.row.pattern) : opcodeByte w = i.opcode :=
  calc opcodeByte w
      = opcodeByte w &&& opcodeByte i.row.mask := by rw [opcodeByte_rowMask, BitVec.and_allOnes]
    _ = opcodeByte (w &&& i.row.mask) := BitVec.extractLsb'_and.symm
    _ = i.opcode := by rw [h, (encode_selects_row i).2]

end Sys2Proof

namespace Sys2Proof.Proofs

/-- Settles O2: the fields of the encoded word meet the operation's format. -/
theorem decodeInvertsEncode : Obligations.DecodeInvertsEncode := fun _ _ => decode_encode

/-- Settles O3: the fields of the word are those of the operation its format reads. -/
theorem encodeInvertsDecode : Obligations.EncodeInvertsDecode := fun _ _ _ => encode_of_decode

/-- Settles O4: no operation is a matter of the opcode byte, the other two reasons one of the row's format. -/
theorem illegalWordsByField : Obligations.IllegalWordsByField := by
  refine ⟨?noSuchOperation, ?formatN, ?formatB, ?formatC⟩
  case noSuchOperation =>
    intro cfg w
    rw [decode_eq_noSuchOperation_iff, ← not_exists, ← mem_opcodeBytes_iff,
      ← extractLsb'_opcodeByte (start := 4) w (by decide), ← extractLsb'_opcodeByte (start := 0) w (by decide)]
    exact not_mem_opcodeBytes_iff (opcodeByte w)
  case formatN =>
    intro cfg w hop
    obtain ⟨i, hi, hopcode⟩ : ∃ i ∈ noOperandInstrs, i.opcode = opcodeByte w := List.mem_map.1 hop
    rw [(noOperand_of_mem hi).decode hopcode.symm]
    exact formatN_eq_operandFieldNotZero_iff
  case formatB =>
    intro cfg w hop
    obtain ⟨f, hf, hopcode⟩ : ∃ f ∈ byteInstrs, (f 0#8).opcode = opcodeByte w := List.mem_map.1 hop
    rw [(byteOperand_of_mem hf).decode hopcode.symm]
    exact formatB_eq_operandFieldNotZero_iff
  case formatC =>
    intro cfg w hop
    rw [decode_ledWriteByte hop]
    exact ⟨fun hidx => if_pos hidx, fun hidx => if_neg (Nat.not_lt.2 hidx)⟩

/-- Settles O5: a decoded word is its operation's own, which selects the row; and a row fixes the whole opcode byte. -/
theorem rowsSelectAndExclude : Obligations.RowsSelectAndExclude := by
  refine ⟨fun cfg w i hdecode => ?_, fun i j w hi hj => (opcodeByte_of_selects hi).symm.trans (opcodeByte_of_selects hj)⟩
  obtain ⟨rfl, -⟩ := encode_of_decode hdecode
  exact (encode_selects_row i).1

end Sys2Proof.Proofs
end

section
/-! SUPPORT. The response word (R93, R94), and what answers `Illegal` (R101). -/

namespace Sys2Proof.Machine

/-! ### The response word -/

theorem status_response (st : Status) (v : BitVec 16) : (response st v).extractLsb' 16 4 = statusCode st :=
  BitVec.extractLsb'_append_eq_left

theorem value_response (st : Status) (v : BitVec 16) : (response st v).extractLsb' 0 16 = v :=
  BitVec.extractLsb'_append_eq_right

/-- The status a code names; the codes 6 to 14 name none (R94). -/
def statusOfCode? (code : BitVec 4) : Option Status :=
  [.ok, .busy, .empty, .outOfMemory, .timeout, .fail, .illegal].find? fun st => statusCode st == code

theorem statusOfCode?_statusCode (st : Status) : statusOfCode? (statusCode st) = some st := by
  cases st <;> rfl

theorem statusCode_injective {a b : Status} (h : statusCode a = statusCode b) : a = b :=
  Option.some_injective _ (by rw [← statusOfCode?_statusCode, h, statusOfCode?_statusCode])

theorem status_eq_of_response_eq {a b : Status} {v u : BitVec 16} (h : response a v = response b u) : a = b :=
  statusCode_injective (by rw [← status_response a v, h, status_response])

/-- The responses added to the same list by the same operation have the same status. -/
theorem Answers.status_unique {s t : State} {a b : Status} {v u : BitVec 16} (ha : Answers s t a v) (hb : Answers s t b u) :
    a = b := by
  have happend : s.answers ++ [response a v] = s.answers ++ [response b u] := ha.symm.trans hb
  exact status_eq_of_response_eq (List.singleton_inj.1 (List.append_cancel_left happend))

/-! ### An illegal word -/

theorem onlyAnswers_answer (s : State) (st : Status) (v : BitVec 16) : OnlyAnswers s (s.answer st v) :=
  ⟨⟨rfl, rfl, rfl, rfl, rfl, rfl, rfl⟩, rfl, rfl, rfl, rfl, rfl, rfl⟩

/-- `HOST`, idle with an illegal word to present, is answered `Illegal` in one step, in its turn of either kind (R101). -/
theorem step_of_illegal {s : State} {w : Cmd} {ws : List Cmd} {rest : List Turn} {turn : Turn} {why : Illegal}
    (hturn : turn = .hostOp ∨ turn = .host) (hsched : s.sched = turn :: rest) (hidle : s.host = .idle)
    (hprog : s.program = w :: ws) (hdecode : decode s.cfg w = .illegal why) :
    step s = .next (((s.setSched rest).setProgram ws).answer .illegal 0#16) := by
  have hdec : decode ((s.setSched rest).setProgram ws).cfg w = .illegal why := hdecode
  rw [step_turn hsched]
  obtain rfl | rfl := hturn
  · calc takeTurn .hostOp (s.setSched rest)
        = present w ((s.setSched rest).setProgram ws) := hostOpTurn_idle hidle hprog
      _ = _ := by rw [present, hdec]; rfl
  · calc takeTurn .host (s.setSched rest)
        = presentFirst w ((s.setSched rest).setProgram ws) := hostTurn_idle hidle hprog
      _ = _ := by rw [presentFirst, hdec]; rfl

/-! ### The operations that answer `Illegal` -/

/-- The operation ended with one response, which is `Illegal` only if the block does not have the operation. -/
def AnswersLegally (i : Instr) (s t : State) : Prop :=
  ∃ st v, Answers s t st v ∧ (st = .illegal → i.wellFormed s.cfg = false)

theorem answersLegally_answer {i : Instr} {s t : State} {st : Status} {v : BitVec 16} (ht : t.answers = s.answers)
    (hst : st ≠ .illegal) : AnswersLegally i s (t.answer st v) :=
  ⟨st, v, congrArg (· ++ [response st v]) ht, fun h => absurd h hst⟩

theorem txStartBody_status_ne_illegal (s : State) : (txStartBody s).1 ≠ .illegal := by
  rw [txStartBody_eq]
  split
  · exact nofun
  · split
    · exact nofun
    · exact nofun

theorem exec_answersLegally (i : Instr) (s : State) : LeadsTo (AnswersLegally i s) (exec i s) := by
  cases i with
  | rbPush b =>
    simp only [exec, execRbPush]
    cases rbPushSlot s with
    | none => exact answersLegally_answer rfl nofun
    | some c => exact leadsTo_store fun _ => answersLegally_answer rfl nofun
  | rbPop =>
    simp only [exec, execRbPop]
    cases rbPopSlot s with
    | none => trivial
    | some c => exact leadsTo_withByte fun _ _ => answersLegally_answer rfl nofun
  | txEnq b =>
    simp only [exec, execTxEnq]
    cases txEnqSlot s with
    | none => exact answersLegally_answer rfl nofun
    | some c => exact leadsTo_store fun _ => answersLegally_answer rfl nofun
  | txStart => exact answersLegally_answer (txStartBody_answers s) (txStartBody_status_ne_illegal s)
  | txEvt =>
    exact leadsTo_ite (fun _ => answersLegally_answer (txStartBody_answers (txAcknowledge s)) nofun)
      fun _ => answersLegally_answer rfl nofun
  | rxStart => exact leadsTo_ite (fun _ => trivial) fun _ => answersLegally_answer rfl nofun
  | rxRead =>
    simp only [exec, execRxRead, rxReadLoad]
    exact leadsTo_withByte fun _ _ => answersLegally_answer rfl nofun
  | ledClear => exact answersLegally_answer (ledStoreRun_answers _ _ s) nofun
  | ledWrite idx c =>
    exact leadsTo_ite (fun _ => answersLegally_answer (ledStoreRun_answers _ _ s) nofun)
      fun hidx => ⟨.illegal, 0#16, rfl, fun _ => decide_eq_false hidx⟩
  | ledUpdate =>
    rw [exec, execLedUpdate_eq]
    exact leadsTo_ite (fun _ => answersLegally_answer rfl nofun) fun _ => answersLegally_answer rfl nofun
  | ledEvt => exact leadsTo_ite (fun _ => answersLegally_answer rfl nofun) fun _ => answersLegally_answer rfl nofun
  | rbAvail | rbIsEmpty | rbIsFull | rxStop | rxAvail => exact answersLegally_answer rfl nofun

end Sys2Proof.Machine

namespace Sys2Proof.Proofs
open Sys2Proof.Machine

/-- Settles O1: each word listed is its operation's and is decoded by `decode_encode`; a word is `Illegal` by its opcode byte or by a
field of it, and only the last by the strip length. -/
theorem workedEncodings : Obligations.WorkedEncodings := by
  intro cfg hlength
  have hworked {i : Instr} {w : Cmd} (hencode : encode i = w) (hwf : i.wellFormed cfg = true) :
      encode i = w ∧ decode cfg w = .instr i := ⟨hencode, hencode ▸ decode_encode hwf⟩
  have hinside : (Instr.ledWrite 1#16 0xFF0000#24).wellFormed cfg = true := decide_eq_true (by rw [hlength]; decide)
  have hbeyond : ¬ (idxField 0x310002000000#48).toNat < cfg.stripLength := by rw [hlength]; decide
  refine ⟨?worked, ?illegal, by decide⟩
  case worked =>
    simp only [List.forall_mem_cons]
    exact ⟨hworked rfl rfl, hworked rfl rfl, hworked rfl rfl, hworked rfl rfl, hworked rfl rfl, hworked rfl rfl,
      hworked rfl hinside, hworked rfl rfl, nofun⟩
  case illegal =>
    simp only [List.forall_mem_cons]
    exact ⟨rfl, rfl, rfl, rfl, rfl, if_neg hbeyond, nofun⟩

/-- Settles O6: the response word is its two fields side by side, and a code names its status. -/
theorem responseWordFields : Obligations.ResponseWordFields :=
  ⟨fun st v => ⟨status_response st v, value_response st v⟩, fun _ _ => statusCode_injective, rfl, rfl, rfl, rfl, rfl, rfl, rfl⟩

/-- Settles O10: the step of an illegal word, the meaning of `LED.WRITE` beyond the strip, and the response of every operation. -/
theorem illegalWordChangesNothing : Obligations.IllegalWordChangesNothing := by
  refine ⟨?word, ?beyondStrip, ?onlyIllFormed⟩
  case word =>
    intro s w ws rest turn why hturn hsched hidle hprog hdecode
    exact ⟨_, step_of_illegal hturn hsched hidle hprog hdecode, onlyAnswers_answer _ _ _, rfl⟩
  case beyondStrip =>
    intro s idx c hidx
    exact ⟨s.answer .illegal 0#16, if_neg (Nat.not_lt.2 hidx), onlyAnswers_answer _ _ _, byteAt_answer s _ _, rfl⟩
  case onlyIllFormed =>
    intro s t i v hexec hillegal
    obtain ⟨st, u, hanswers, hlegal⟩ : AnswersLegally i s t := (exec_answersLegally i s).of_next hexec
    exact hlegal (hanswers.status_unique hillegal)

end Sys2Proof.Proofs
end

section
/-! SUPPORT. The laws of the cursor arithmetic (R120 to R126). The count of resident bytes is the one number below `N` that leads from
`tail` to `head` modulo `N`; the producer, consumer and position laws follow from that. -/

namespace Sys2Proof.Machine

section
variable {n h t : Nat}

theorem inc_eq_mod {i : Nat} (hi : i < n) : inc n i = (i + 1) % n := by
  unfold inc
  split
  · rw [‹i + 1 = n›, Nat.mod_self]
  · exact (Nat.mod_eq_of_lt (by omega)).symm

/-- The closed form of `dist` is the remainder of the difference of the cursors, taken non-negative. -/
theorem cursorDist_eq_emod (hh : h < n) (ht : t < n) : (cursorDist n h t : Int) = ((h : Int) - t) % n := by
  unfold cursorDist
  split
  · rw [Int.emod_eq_of_lt (by omega) (by omega)]
    omega
  · rw [← Int.add_emod_right, Int.emod_eq_of_lt (by omega) (by omega)]
    omega

/-- The count leads from `tail` to `head` (R125). -/
theorem add_cursorDist_mod (hh : h < n) (ht : t < n) : (t + cursorDist n h t) % n = h := by
  unfold cursorDist
  split
  · rw [Nat.add_sub_cancel' ‹t ≤ h›, Nat.mod_eq_of_lt hh]
  · rw [Nat.add_sub_cancel' (by omega), Nat.add_mod_right, Nat.mod_eq_of_lt hh]

/-- No other number below `N` does. -/
theorem cursorDist_eq_of_add_mod {d : Nat} (ht : t < n) (hd : d < n) (hplace : (t + d) % n = h) : cursorDist n h t = d := by
  have hh : h < n := hplace ▸ Nat.mod_lt _ (by omega)
  have hmod : t + cursorDist n h t ≡ t + d [MOD n] := (add_cursorDist_mod hh ht).trans hplace.symm
  exact (Nat.ModEq.add_left_cancel' t hmod).eq_of_lt_of_lt (cursorDist_lt hh ht) hd

theorem eq_iff_cursorDist_eq_zero (ht : t < n) : h = t ↔ cursorDist n h t = 0 := by
  unfold cursorDist
  split <;> omega

/-- Full is `N − 1` resident bytes: one place before `tail`, once round. -/
theorem inc_eq_iff_cursorDist (hh : h < n) (ht : t < n) : inc n h = t ↔ cursorDist n h t = n - 1 := by
  unfold inc cursorDist
  split <;> split <;> omega

/-- The producer law (R123). -/
theorem cursorDist_inc_head (hh : h < n) (ht : t < n) (hroom : cursorDist n h t < n - 1) :
    cursorDist n (inc n h) t = cursorDist n h t + 1 := by
  refine cursorDist_eq_of_add_mod ht (by omega) ?_
  rw [← Nat.add_assoc, ← Nat.mod_add_mod, add_cursorDist_mod hh ht, inc_eq_mod hh]

/-- The consumer law for `k` bytes at once (R124, R125). -/
theorem cursorDist_advance_tail {k : Nat} (hh : h < n) (ht : t < n) (hk : k ≤ cursorDist n h t) :
    cursorDist n h ((t + k) % n) = cursorDist n h t - k := by
  have hlt := cursorDist_lt hh ht
  refine cursorDist_eq_of_add_mod (Nat.mod_lt _ (by omega)) (by omega) ?_
  rw [Nat.mod_add_mod, Nat.add_assoc, Nat.add_sub_cancel' hk, add_cursorDist_mod hh ht]

theorem cursorDist_inc_tail (hh : h < n) (ht : t < n) (hbyte : 0 < cursorDist n h t) :
    cursorDist n h (inc n t) = cursorDist n h t - 1 := by
  rw [inc_eq_mod ht]
  exact cursorDist_advance_tail hh ht hbyte

/-- Advancing `tail` of an empty buffer makes it read as full (R124). -/
theorem cursorDist_inc_self (ht : t < n) : cursorDist n t (inc n t) = n - 1 := by
  refine cursorDist_eq_of_add_mod (inc_lt ht) (by omega) ?_
  rw [inc_eq_mod ht, Nat.mod_add_mod, Nat.add_assoc, Nat.add_sub_cancel' (by omega), Nat.add_mod_right, Nat.mod_eq_of_lt ht]

/-- The run is the count exactly when the resident bytes do not pass the end of the array (R126(c)). -/
theorem run_eq_cursorDist_iff (ht : t < n) : run n h t = cursorDist n h t ↔ t + cursorDist n h t ≤ n := by
  unfold run
  omega

/-- A run shorter than the count ends at the end of the array, and a run from index 0 takes the rest (R126(d)). -/
theorem run_of_wrapped (hh : h < n) (ht : t < n) (hwrap : run n h t < cursorDist n h t) :
    run n h t = n - t ∧ (t + run n h t) % n = 0 ∧ run n h 0 = cursorDist n h t - run n h t := by
  have hrun : run n h t = n - t := by unfold run at hwrap ⊢; omega
  have hbehind : h < t := by
    rw [hrun] at hwrap
    unfold cursorDist at hwrap
    split at hwrap <;> omega
  have hdist : cursorDist n h t = h + n - t := if_neg (by omega)
  refine ⟨hrun, ?_, ?_⟩
  · rw [hrun, Nat.add_sub_cancel' ht.le, Nat.mod_self]
  · have hfirst : run n h 0 = h := Nat.min_eq_left hh.le
    omega

end

end Sys2Proof.Machine

namespace Sys2Proof.Proofs
open Sys2Proof.Machine

/-- Settles O13: each closed form is the reduction; that of `run` is its definition. -/
theorem cursorFunctionsAreReductions : Obligations.CursorFunctionsAreReductions := by
  intro n h t i hh ht hi
  have hclosed : inc n i = if i = n - 1 then 0 else i + 1 := if_congr (by omega) rfl rfl
  exact ⟨inc_eq_mod hi, hclosed, cursorDist_eq_emod hh ht, rfl, rfl⟩

/-- Settles O14: a full buffer holds `N − 1` bytes, which for `N ≥ 2` is not 0. -/
theorem emptyAndFull : Obligations.EmptyAndFull := by
  intro n h t hn hh ht
  have hempty := eq_iff_cursorDist_eq_zero (h := h) ht
  have hfull := inc_eq_iff_cursorDist hh ht
  exact ⟨hempty, hfull, by omega⟩

/-- Settles O15: the producer and the consumer law, and each cursor advanced the wrong way. -/
theorem producerAndConsumerLaws : Obligations.ProducerAndConsumerLaws := by
  intro n h t hn hh ht
  refine ⟨Nat.le_sub_one_of_lt (cursorDist_lt hh ht), cursorDist_inc_head hh ht, fun hcount => ?full,
    cursorDist_inc_tail hh ht, fun hcount => ?empty⟩
  case full =>
    have hinc := (inc_eq_iff_cursorDist hh ht).2 hcount
    exact ⟨hinc, (eq_iff_cursorDist_eq_zero ht).1 hinc⟩
  case empty =>
    obtain rfl := (eq_iff_cursorDist_eq_zero ht).2 hcount
    exact cursorDist_inc_self ht

/-- Settles O16: where the count leads from `tail`, and from `tail` advanced by `k`. -/
theorem positionLaw : Obligations.PositionLaw := fun _ _ _ _ hh ht hk =>
  ⟨add_cursorDist_mod hh ht, cursorDist_advance_tail hh ht hk⟩

/-- Settles O17: the run is a minimum, and is less than the count only when the bytes pass the end of the array. -/
theorem runLaw : Obligations.RunLaw := by
  intro n h t hh ht
  have hpositive : 1 ≤ cursorDist n h t → 1 ≤ run n h t := fun hcount => Nat.le_min.2 ⟨hcount, by omega⟩
  exact ⟨run_le_cursorDist n h t, hpositive, add_run_le h ht, run_eq_cursorDist_iff ht, run_of_wrapped hh ht⟩

end Sys2Proof.Proofs
end

section
/-! SUPPORT. Unit RB as a queue (R128 to R133): its resident bytes, and what each operation does with them. -/

namespace Sys2Proof.Machine

/-! ### The bytes of a ring -/

section
variable (s : State) (u : MemId) (n t count : Nat)

@[simp] theorem ringBytes_length : (ringBytes s u n t count).length = count := by simp [ringBytes]

/-- The youngest byte apart. -/
theorem ringBytes_succ : ringBytes s u n t (count + 1) = ringBytes s u n t count ++ [byteAt s u ((t + count) % n)] := by
  simp [ringBytes, List.range_succ]

/-- The oldest byte apart. -/
theorem ringBytes_succ_eq_cons :
    ringBytes s u n t (count + 1) = byteAt s u (t % n) :: ringBytes s u n ((t + 1) % n) count := by
  simp [ringBytes, List.range_succ_eq_map, Nat.mod_add_mod, Nat.add_assoc, Nat.add_comm 1]

end

/-- The bytes of a ring are those at its slots. -/
theorem ringBytes_congr {s s' : State} {u : MemId} {n t count : Nat}
    (h : ∀ k < count, byteAt s' u ((t + k) % n) = byteAt s u ((t + k) % n)) :
    ringBytes s' u n t count = ringBytes s u n t count :=
  List.map_congr_left fun k hk => h k (List.mem_range.1 hk)

/-- The producer law on bytes: a byte stored at `head`, and `head` advanced, is behind all that were resident. Its slot is none of
theirs, since fewer than `N` slots lie between. -/
theorem ringBytes_inc_head {s s' : State} {u : MemId} {n h t : Nat} (hh : h < n) (ht : t < n) (hroom : cursorDist n h t < n - 1)
    (hstored : BytesSameBut u h s s') :
    ringBytes s' u n t (cursorDist n (inc n h) t) = ringBytes s u n t (cursorDist n h t) ++ [byteAt s' u h] := by
  have hothers : ringBytes s' u n t (cursorDist n h t) = ringBytes s u n t (cursorDist n h t) := by
    refine ringBytes_congr fun k hk => hstored _ _ fun hslot => ?_
    have hcount : cursorDist n h t = k := cursorDist_eq_of_add_mod ht (by omega) hslot.2
    omega
  rw [cursorDist_inc_head hh ht hroom, ringBytes_succ, hothers, add_cursorDist_mod hh ht]

/-- The consumer law on bytes: advancing `tail` takes the oldest byte. -/
theorem ringBytes_inc_tail (s : State) (u : MemId) {n h t : Nat} (hh : h < n) (ht : t < n) (hbyte : 0 < cursorDist n h t) :
    ringBytes s u n t (cursorDist n h t) = byteAt s u t :: ringBytes s u n (inc n t) (cursorDist n h (inc n t)) := by
  obtain ⟨count, hcount⟩ := Nat.exists_eq_succ_of_ne_zero hbyte.ne'
  have hrest : cursorDist n h (inc n t) = count := by rw [cursorDist_inc_tail hh ht hbyte, hcount]; rfl
  rw [hrest, hcount, ringBytes_succ_eq_cons, Nat.mod_eq_of_lt ht, inc_eq_mod ht]

/-! ### The states `RB.PUSH` and `RB.POP` go on to, before the response -/

/-- The byte is stored at `RB.head`, and `RB.head` advances (R128). -/
def rbPushed (b : Byte) (s : State) : State :=
  s.setRb { s.rb with mem := s.rb.mem.write s.rb.head.toNat b, head := incCursor s.cfg.nRb s.rb.head }

/-- `RB.tail` advances (R129). -/
def rbPopped (s : State) : State := s.setRb { s.rb with tail := incCursor s.cfg.nRb s.rb.tail }

section
variable {s : State}

theorem exec_rbPush_free (b : Byte) (hrb : RbOk s) (hfree : inc s.cfg.nRb s.rb.head.toNat ≠ s.rb.tail.toNat) :
    exec (.rbPush b) s = .next ((rbPushed b s).answer .ok 0#16) := by
  obtain ⟨hhead, -⟩ := hrb
  exact execRbPush_free b hfree hhead

theorem exec_rbPop_some (hrb : RbOk s) (hsome : s.rb.head ≠ s.rb.tail) :
    exec .rbPop s = .next ((rbPopped s).answer .ok (byteValue (byteAt s .rb s.rb.tail.toNat))) := by
  obtain ⟨-, htail, -⟩ := hrb
  exact execRbPop_some hsome htail

/-- `RB.PUSH` stores one byte. -/
theorem byteAt_rbPushed (b : Byte) (w : MemId) (j : Nat) :
    byteAt (rbPushed b s) w j = if w = .rb ∧ j = s.rb.head.toNat then b else byteAt s w j := by
  have hregisters : byteAt (rbPushed b s) w j = byteAt (s.setMem .rb (s.rb.mem.write s.rb.head.toNat b)) w j :=
    byteAt_setRb (s := s.setMem .rb (s.rb.mem.write s.rb.head.toNat b)) rfl w j
  exact hregisters.trans (byteAt_store s .rb s.rb.head.toNat b w j)

theorem byteAt_rbPushed_head (b : Byte) : byteAt (rbPushed b s) .rb s.rb.head.toNat = b :=
  (byteAt_rbPushed b _ _).trans (if_pos ⟨rfl, rfl⟩)

theorem rbPushed_bytesSameBut (b : Byte) : BytesSameBut .rb s.rb.head.toNat s (rbPushed b s) :=
  fun _ _ hother => (byteAt_rbPushed b _ _).trans (if_neg hother)

theorem byteAt_rbPopped (w : MemId) (j : Nat) : byteAt (rbPopped s) w j = byteAt s w j := byteAt_setRb rfl w j

theorem rbPushed_ok (b : Byte) (hcfg : s.cfg.Valid) (hrb : RbOk s) : RbOk (rbPushed b s) := by
  obtain ⟨⟨-, hn⟩, -⟩ := hcfg
  obtain ⟨hhead, htail, hmem⟩ := hrb
  exact ⟨incCursor_lt hn hhead, htail, Memory.write_wf b hmem hhead⟩

theorem rbPopped_ok (hcfg : s.cfg.Valid) (hrb : RbOk s) : RbOk (rbPopped s) := by
  obtain ⟨⟨-, hn⟩, -⟩ := hcfg
  obtain ⟨hhead, htail, hmem⟩ := hrb
  exact ⟨hhead, incCursor_lt hn htail, hmem⟩

theorem rbPushed_head (b : Byte) (hcfg : s.cfg.Valid) (hrb : RbOk s) :
    (rbPushed b s).rb.head.toNat = inc s.cfg.nRb s.rb.head.toNat := by
  obtain ⟨⟨-, hn⟩, -⟩ := hcfg
  obtain ⟨hhead, -⟩ := hrb
  exact incCursor_toNat hn hhead

theorem rbPopped_tail (hcfg : s.cfg.Valid) (hrb : RbOk s) :
    (rbPopped s).rb.tail.toNat = inc s.cfg.nRb s.rb.tail.toNat := by
  obtain ⟨⟨-, hn⟩, -⟩ := hcfg
  obtain ⟨-, htail, -⟩ := hrb
  exact incCursor_toNat hn htail

theorem onlyRb_rbPushed (b : Byte) (st : Status) (v : BitVec 16) : OnlyRb s ((rbPushed b s).answer st v) :=
  onlyUnit_answer (onlyUnit_setRb _) st v

theorem onlyRb_rbPopped (st : Status) (v : BitVec 16) : OnlyRb s ((rbPopped s).answer st v) :=
  onlyUnit_answer (onlyUnit_setRb _) st v

/-! ### The resident bytes -/

@[simp] theorem length_rbResident (s : State) :
    (rbResident s).length = cursorDist s.cfg.nRb s.rb.head.toNat s.rb.tail.toNat := ringBytes_length ..

theorem length_rbResident_le (hrb : RbOk s) : (rbResident s).length ≤ s.cfg.nRb - 1 := by
  obtain ⟨hhead, htail, -⟩ := hrb
  rw [length_rbResident]
  exact Nat.le_sub_one_of_lt (cursorDist_lt hhead htail)

theorem rb_empty_iff (hrb : RbOk s) : s.rb.head = s.rb.tail ↔ (rbResident s).length = 0 := by
  obtain ⟨-, htail, -⟩ := hrb
  rw [length_rbResident, cursorDist_eq_zero htail]

theorem rb_full_iff (hrb : RbOk s) :
    inc s.cfg.nRb s.rb.head.toNat = s.rb.tail.toNat ↔ (rbResident s).length = s.cfg.nRb - 1 := by
  obtain ⟨hhead, htail, -⟩ := hrb
  rw [length_rbResident, inc_eq_iff_cursorDist hhead htail]

theorem length_rbResident_lt (hrb : RbOk s) (hfree : inc s.cfg.nRb s.rb.head.toNat ≠ s.rb.tail.toNat) :
    (rbResident s).length < s.cfg.nRb - 1 :=
  Nat.lt_of_le_of_ne (length_rbResident_le hrb) (mt (rb_full_iff hrb).2 hfree)

/-- A push puts its byte behind the resident ones. -/
theorem rbResident_rbPushed (b : Byte) (hcfg : s.cfg.Valid) (hrb : RbOk s)
    (hfree : inc s.cfg.nRb s.rb.head.toNat ≠ s.rb.tail.toNat) : rbResident (rbPushed b s) = rbResident s ++ [b] := by
  have hhead' := rbPushed_head b hcfg hrb
  have hroom := length_rbResident_lt hrb hfree
  rw [length_rbResident] at hroom
  obtain ⟨hhead, htail, -⟩ := hrb
  calc rbResident (rbPushed b s)
      = ringBytes (rbPushed b s) .rb s.cfg.nRb s.rb.tail.toNat
          (cursorDist s.cfg.nRb (inc s.cfg.nRb s.rb.head.toNat) s.rb.tail.toNat) := by rw [← hhead']; rfl
    _ = rbResident s ++ [byteAt (rbPushed b s) .rb s.rb.head.toNat] :=
        ringBytes_inc_head hhead htail hroom (rbPushed_bytesSameBut b)
    _ = rbResident s ++ [b] := by rw [byteAt_rbPushed_head]

/-- A pop takes the oldest byte. -/
theorem rbResident_eq_cons (hcfg : s.cfg.Valid) (hrb : RbOk s) (hsome : s.rb.head ≠ s.rb.tail) :
    rbResident s = byteAt s .rb s.rb.tail.toNat :: rbResident (rbPopped s) := by
  have htail' := rbPopped_tail hcfg hrb
  have hbyte : 0 < (rbResident s).length := Nat.pos_of_ne_zero fun hempty => hsome ((rb_empty_iff hrb).2 hempty)
  rw [length_rbResident] at hbyte
  obtain ⟨hhead, htail, -⟩ := hrb
  have hpopped : rbResident (rbPopped s) = ringBytes s .rb s.cfg.nRb (inc s.cfg.nRb s.rb.tail.toNat)
      (cursorDist s.cfg.nRb s.rb.head.toNat (inc s.cfg.nRb s.rb.tail.toNat)) := by
    rw [← htail']
    exact ringBytes_congr fun k _ => byteAt_rbPopped _ _
  rw [hpopped]
  exact ringBytes_inc_tail s .rb hhead htail hbyte

/-! ### The queries -/

/-- The count fits the value field of the response. -/
theorem rbAvail_value_toNat (hcfg : s.cfg.Valid) (hrb : RbOk s) :
    (BitVec.ofNat 16 (cursorDist s.cfg.nRb s.rb.head.toNat s.rb.tail.toNat)).toNat = (rbResident s).length := by
  obtain ⟨⟨-, hn⟩, -⟩ := hcfg
  have hle := length_rbResident_le hrb
  rw [← length_rbResident]
  exact cursor_toNat (by omega)

theorem exec_rbIsEmpty (s : State) :
    exec .rbIsEmpty s = .next (s.answer .ok (if s.rb.head = s.rb.tail then 1#16 else 0#16)) := by
  simp [exec, execRbIsEmpty, truthValue]

theorem exec_rbIsFull (s : State) :
    exec .rbIsFull s = .next (s.answer .ok (if inc s.cfg.nRb s.rb.head.toNat = s.rb.tail.toNat then 1#16 else 0#16)) := by
  simp [exec, execRbIsFull, truthValue]

/-- An operation that ends in its response alone changes nothing else. -/
theorem answersOnly {i : Instr} {st : Status} {v : BitVec 16} (hexec : exec i s = .next (s.answer st v)) :
    ∃ t, exec i s = .next t ∧ OnlyAnswers s t ∧ AllBytesSame s t ∧ Answers s t st v :=
  ⟨_, hexec, onlyAnswers_answer s st v, byteAt_answer s st v, rfl⟩

/-- `RB.PUSH` answers `OutOfMemory` when the buffer is full, and only then (R132). -/
theorem rb_full_iff_outOfMemory (hrb : RbOk s) (b : Byte) :
    inc s.cfg.nRb s.rb.head.toNat = s.rb.tail.toNat ↔
      ∃ t, exec (.rbPush b) s = .next t ∧ Answers s t .outOfMemory 0#16 := by
  refine ⟨fun hfull => ⟨_, execRbPush_full b hfull, rfl⟩, fun ⟨t, hexec, hanswers⟩ => ?_⟩
  by_contra hfree
  rw [exec_rbPush_free b hrb hfree] at hexec
  cases hexec
  have hok : Answers s ((rbPushed b s).answer .ok 0#16) .ok 0#16 := rfl
  exact absurd (hok.status_unique hanswers) nofun

/-! ### The refinement -/

/-- From `s` the unit has given the responses `rs` and has come to `t`, where it is in order and holds `q`. -/
structure RbActsAs (s : State) (rs : List Rsp) (q : List Byte) (t : State) : Prop where
  cfg : t.cfg = s.cfg
  ok : RbOk t
  answers : t.answers = s.answers ++ rs
  resident : rbResident t = q

theorem RbActsAs.refl (hrb : RbOk s) : RbActsAs s [] (rbResident s) s :=
  ⟨rfl, hrb, (List.append_nil _).symm, rfl⟩

theorem RbActsAs.trans {t w : State} {rs rs' : List Rsp} {q q' : List Byte} (h : RbActsAs s rs q t) (h' : RbActsAs t rs' q' w) :
    RbActsAs s (rs ++ rs') q' w :=
  ⟨h'.cfg.trans h.cfg, h'.ok, by rw [h'.answers, h.answers, List.append_assoc], h'.resident⟩

/-- An operation that writes no register of the unit gives its response alone. -/
theorem rbActsAs_answer (hrb : RbOk s) (st : Status) (v : BitVec 16) :
    RbActsAs s [response st v] (rbResident s) (s.answer st v) :=
  ⟨rfl, hrb, rfl, rfl⟩

theorem rbActsAs_pushed (b : Byte) (hcfg : s.cfg.Valid) (hrb : RbOk s)
    (hfree : inc s.cfg.nRb s.rb.head.toNat ≠ s.rb.tail.toNat) :
    RbActsAs s [response .ok 0#16] (rbResident s ++ [b]) ((rbPushed b s).answer .ok 0#16) :=
  ⟨rfl, rbPushed_ok b hcfg hrb, rfl, rbResident_rbPushed b hcfg hrb hfree⟩

theorem rbActsAs_popped (v : BitVec 16) (hcfg : s.cfg.Valid) (hrb : RbOk s) :
    RbActsAs s [response .ok v] (rbResident (rbPopped s)) ((rbPopped s).answer .ok v) :=
  ⟨rfl, rbPopped_ok hcfg hrb, rfl, rfl⟩

theorem isEmpty_eq_length (hrb : RbOk s) : isEmpty s.rb.head s.rb.tail = ((rbResident s).length == 0) := by
  rw [Bool.eq_iff_iff, isEmpty_iff, beq_iff_eq, rb_empty_iff hrb]

theorem isFull_eq_length (hrb : RbOk s) :
    isFull s.cfg.nRb s.rb.head s.rb.tail = ((rbResident s).length == s.cfg.nRb - 1) := by
  rw [Bool.eq_iff_iff, isFull_iff, beq_iff_eq, rb_full_iff hrb]

theorem queueRun_cons_eq_some {cap : Nat} {i : Instr} {is : List Instr} {q q'' : List Byte} {rs : List Rsp}
    (h : queueRun cap (i :: is) q = some (rs, q'')) :
    ∃ r q' rs', queueStep cap i q = some (r, q') ∧ queueRun cap is q' = some (rs', q'') ∧ rs = r :: rs' := by
  unfold queueRun at h
  split at h
  · cases h
  next r q' hstep =>
    obtain ⟨⟨rs', q₂⟩, hrest, heq⟩ := Option.map_eq_some_iff.1 h
    cases heq
    exact ⟨r, q', rs', hstep, hrest, rfl⟩

/-- Each command of the unit does what the queue does with it. -/
theorem exec_actsAs_queueStep {i : Instr} {r : Rsp} {q : List Byte} (hcfg : s.cfg.Valid) (hrb : RbOk s)
    (hq : queueStep (s.cfg.nRb - 1) i (rbResident s) = some (r, q)) : ∃ t, exec i s = .next t ∧ RbActsAs s [r] q t := by
  cases i with
  | rbPush b =>
    by_cases hfull : inc s.cfg.nRb s.rb.head.toNat = s.rb.tail.toNat
    · have hlength := (rb_full_iff hrb).1 hfull
      simp only [queueStep, hlength, Nat.lt_irrefl, if_false] at hq
      cases hq
      exact ⟨_, execRbPush_full b hfull, rbActsAs_answer hrb _ _⟩
    · have hroom := length_rbResident_lt hrb hfull
      simp only [queueStep, hroom, if_true] at hq
      cases hq
      exact ⟨_, exec_rbPush_free b hrb hfull, rbActsAs_pushed b hcfg hrb hfull⟩
  | rbPop =>
    by_cases hempty : s.rb.head = s.rb.tail
    · rw [List.length_eq_zero_iff.1 ((rb_empty_iff hrb).1 hempty)] at hq
      cases hq
    · rw [rbResident_eq_cons hcfg hrb hempty] at hq
      cases hq
      exact ⟨_, exec_rbPop_some hrb hempty, rbActsAs_popped _ hcfg hrb⟩
  | rbAvail =>
    cases hq
    rw [length_rbResident]
    exact ⟨_, rfl, rbActsAs_answer hrb _ _⟩
  | rbIsEmpty =>
    cases hq
    rw [← isEmpty_eq_length hrb]
    exact ⟨_, rfl, rbActsAs_answer hrb _ _⟩
  | rbIsFull =>
    cases hq
    rw [← isFull_eq_length hrb]
    exact ⟨_, rfl, rbActsAs_answer hrb _ _⟩
  | txEnq | txStart | txEvt | rxStart | rxStop | rxAvail | rxRead | ledClear | ledWrite | ledUpdate | ledEvt => cases hq

/-- A run of commands does what the queue does with them. -/
theorem execAll_actsAs_queueRun (is : List Instr) : ∀ {s : State} {rs : List Rsp} {q : List Byte}, s.cfg.Valid → RbOk s →
    queueRun (s.cfg.nRb - 1) is (rbResident s) = some (rs, q) → ∃ t, execAll is s = .next t ∧ RbActsAs s rs q t := by
  induction is with
  | nil =>
    intro s rs q _ hrb hq
    cases hq
    exact ⟨s, rfl, .refl hrb⟩
  | cons i is ih =>
    intro s rs q hcfg hrb hq
    obtain ⟨r, q', rs', hstep, hrest, rfl⟩ := queueRun_cons_eq_some hq
    obtain ⟨t, hexec, ht⟩ := exec_actsAs_queueStep hcfg hrb hstep
    obtain ⟨w, hexecAll, hw⟩ := ih (s := t) (ht.cfg ▸ hcfg) ht.ok (by rw [ht.cfg, ht.resident]; exact hrest)
    exact ⟨w, by rw [execAll, hexec, andThen_next, hexecAll], ht.trans hw⟩

end

end Sys2Proof.Machine

namespace Sys2Proof.Proofs
open Sys2Proof.Machine

/-- Settles O18: a full buffer is left alone, else `rbPushed`. -/
theorem rbPushStoresAndAdvances : Obligations.RbPushStoresAndAdvances := by
  intro s b hcfg hrb
  refine ⟨fun hfull => ?full, fun hfree => ?free⟩
  case full => exact answersOnly (i := .rbPush b) (execRbPush_full b hfull)
  case free =>
    exact ⟨_, exec_rbPush_free b hrb hfree, onlyRb_rbPushed b _ _, rfl, rbPushed_head b hcfg hrb, byteAt_rbPushed_head b,
      rbPushed_bytesSameBut b, rfl⟩

/-- Settles O19: an empty buffer is the fault of U1, else `rbPopped`. -/
theorem rbPopReadsAndAdvances : Obligations.RbPopReadsAndAdvances := by
  intro s hcfg hrb
  refine ⟨fun hsome => ?_, execRbPop_empty⟩
  exact ⟨_, exec_rbPop_some hrb hsome, onlyRb_rbPopped _ _, rfl, rbPopped_tail hcfg hrb, byteAt_rbPopped, rfl⟩

/-- Settles O20: the value answered is the number of resident bytes, and full is `N − 1` of them (`rb_full_iff`). -/
theorem rbQueriesAnswerAndChangeNothing : Obligations.RbQueriesAnswerAndChangeNothing := by
  refine ⟨rfl, rfl, rfl, fun s hcfg hrb => ?_⟩
  obtain ⟨hhead, htail, -⟩ := id hrb
  obtain ⟨t, hexec, honly, hbytes, hanswers⟩ := answersOnly (s := s) (i := .rbAvail) rfl
  have hvalue := rbAvail_value_toNat hcfg hrb
  have hle := length_rbResident_le hrb
  have hfull := rb_full_iff hrb
  have hdist : ((rbResident s).length : Int) = ((s.rb.head.toNat : Int) - s.rb.tail.toNat) % s.cfg.nRb := by
    rw [length_rbResident]
    exact cursorDist_eq_emod hhead htail
  rw [← inc_eq_mod hhead]
  rw [← hvalue] at hdist hle hfull
  exact ⟨t, _, hexec, honly, hbytes, hanswers, hdist, hle, answersOnly (exec_rbIsEmpty s), answersOnly (exec_rbIsFull s), hfull,
    rb_full_iff_outOfMemory hrb⟩

/-- Settles O21: induction over the commands, each a step of the queue (`exec_actsAs_queueStep`). -/
theorem ringBufferIsAFifoQueue : Obligations.RingBufferIsAFifoQueue := by
  refine ⟨fun is s rs q hcfg hrb hq => ?run, fun cfg => rfl⟩
  case run =>
    obtain ⟨t, hexec, ht⟩ := execAll_actsAs_queueRun is hcfg hrb hq
    have hle := length_rbResident_le ht.ok
    rw [ht.resident, ht.cfg] at hle
    exact ⟨t, hexec, ht.answers, ht.resident, hle⟩

end Sys2Proof.Proofs
end

section
/-! SUPPORT. Unit TX (R145 to R150): the states its operations and its engine go on to, and its registers and bytes in them. -/

namespace Sys2Proof.Machine

/-! ### The states the operations and the engine of `TX` go on to, before the response -/

/-- The byte is stored at `TX.head` (R145, s2). -/
def txStored (b : Byte) (s : State) : State := s.setMem .tx (s.tx.mem.write s.tx.head.toNat b)

/-- `TX.head` advances (R145, s3). -/
def txAdvanced (s : State) : State := s.setTx { s.tx with head := incCursor s.cfg.nTx s.tx.head }

/-- The run from `TX.tail` is armed, committed and started (R146, s3 to s5). -/
def txStarted (s : State) : State :=
  s.setTx (txArmed s.cfg.nTx (BitVec.ofNat 16 (run s.cfg.nTx s.tx.head.toNat s.tx.tail.toNat)) s.tx)

/-- The byte at `TX.src` is sent, and the descriptor moves by one (R150). -/
def txSent (s : State) : State := (s.emitTx (byteAt s .tx s.tx.src.toNat)).setTx (txDescriptorStep s.tx)

section
variable {s : State}

theorem exec_txEnq_free (b : Byte) (htx : TxOk s) (hfree : inc s.cfg.nTx s.tx.head.toNat ≠ s.tx.tail.toNat) :
    exec (.txEnq b) s = .next ((txAdvanced (txStored b s)).answer .ok 0#16) := by
  obtain ⟨hhead, -⟩ := htx
  exact execTxEnq_free b hfree hhead

theorem exec_txStart_eq (s : State) :
    exec .txStart s =
      if s.tx.active then .next (s.answer .busy 0#16)
      else if cursorDist s.cfg.nTx s.tx.head.toNat s.tx.tail.toNat = 0 then .next (s.answer .empty 0#16)
      else .next ((txStarted s).answer .ok 0#16) := by
  rw [exec, execTxStart, txStartBody_eq]
  split
  · rfl
  · split <;> rfl

theorem exec_txEvt_eq (s : State) :
    exec .txEvt s =
      if s.tx.tc then
        if cursorDist s.cfg.nTx s.tx.head.toNat s.tx.tail.toNat = 0 then .next ((txAcknowledge s).answer .ok 0#16)
        else .next ((txStarted (txAcknowledge s)).answer .ok 0#16)
      else .next (s.answer .fail 0#16) := execTxEvt_eq s

/-! ### A byte enqueued -/

theorem byteAt_txStored (b : Byte) (w : MemId) (j : Nat) :
    byteAt (txStored b s) w j = if w = .tx ∧ j = s.tx.head.toNat then b else byteAt s w j :=
  byteAt_store s .tx s.tx.head.toNat b w j

theorem byteAt_txStored_head (b : Byte) : byteAt (txStored b s) .tx s.tx.head.toNat = b :=
  (byteAt_txStored b _ _).trans (if_pos ⟨rfl, rfl⟩)

theorem txStored_bytesSameBut (b : Byte) : BytesSameBut .tx s.tx.head.toNat s (txStored b s) :=
  fun _ _ hother => (byteAt_txStored b _ _).trans (if_neg hother)

theorem txStored_ok (b : Byte) (htx : TxOk s) : TxOk (txStored b s) := by
  obtain ⟨hhead, htail, hsrc, hcnt, hmem⟩ := htx
  exact ⟨hhead, htail, hsrc, hcnt, Memory.write_wf b hmem hhead⟩

theorem byteAt_txAdvanced (w : MemId) (j : Nat) : byteAt (txAdvanced s) w j = byteAt s w j := byteAt_setTx rfl w j

theorem txAdvanced_head (hcfg : s.cfg.Valid) (hhead : s.tx.head.toNat < s.cfg.nTx) :
    (txAdvanced s).tx.head.toNat = inc s.cfg.nTx s.tx.head.toNat := by
  obtain ⟨-, ⟨-, hn⟩, -⟩ := hcfg
  exact incCursor_toNat hn hhead

/-! ### A run committed -/

/-- In `t` the run from `TX.tail` of `s` is armed, and `TX.tail` has moved past it (R146, s3 and s4). -/
structure RunCommitted (s t : State) : Prop where
  head : t.tx.head = s.tx.head
  src : t.tx.src = s.tx.tail
  cnt : t.tx.cnt.toNat = run s.cfg.nTx s.tx.head.toNat s.tx.tail.toNat
  tail : t.tx.tail.toNat = (s.tx.tail.toNat + t.tx.cnt.toNat) % s.cfg.nTx

/-- The count and the read index of the run fit their registers. -/
theorem runCommitted_of_registers {t : State} {r : Cursor} (hcfg : s.cfg.Valid) (htx : TxOk s)
    (hhead' : t.tx.head = s.tx.head) (hsrc' : t.tx.src = s.tx.tail)
    (hr : r = BitVec.ofNat 16 (run s.cfg.nTx s.tx.head.toNat s.tx.tail.toNat)) (hcnt' : t.tx.cnt = r)
    (htail' : t.tx.tail = BitVec.ofNat 16 ((s.tx.tail.toNat + r.toNat) % s.cfg.nTx)) : RunCommitted s t := by
  obtain ⟨-, ⟨-, hn⟩, -⟩ := hcfg
  obtain ⟨hhead, htail, -⟩ := htx
  have hrun := run_le_cursorDist s.cfg.nTx s.tx.head.toNat s.tx.tail.toNat
  have hdist := cursorDist_lt hhead htail
  have hmod : (s.tx.tail.toNat + r.toNat) % s.cfg.nTx < s.cfg.nTx := Nat.mod_lt _ (by omega)
  refine ⟨hhead', hsrc', ?_, ?_⟩
  · rw [hcnt', hr, cursor_toNat (by omega)]
  · rw [htail', hcnt', cursor_toNat (by omega)]

theorem txStarted_committed (hcfg : s.cfg.Valid) (htx : TxOk s) : RunCommitted s (txStarted s) :=
  runCommitted_of_registers hcfg htx rfl rfl rfl rfl rfl

/-- Which run is meant depends on the size of the buffer and the two cursors. -/
theorem RunCommitted.congr {s' t : State} (h : RunCommitted s' t) (hcfg : s'.cfg = s.cfg) (hhead : s'.tx.head = s.tx.head)
    (htail : s'.tx.tail = s.tx.tail) : RunCommitted s t := by
  obtain ⟨hhead', hsrc', hcnt', htail'⟩ := h
  rw [hcfg, hhead, htail] at hcnt'
  rw [hcfg, htail] at htail'
  exact ⟨hhead'.trans hhead, hsrc'.trans htail, hcnt', htail'⟩

theorem RunCommitted.answer {t : State} (h : RunCommitted s t) (st : Status) (v : BitVec 16) : RunCommitted s (t.answer st v) :=
  ⟨h.head, h.src, h.cnt, h.tail⟩

/-- The count drops by the run (R125). -/
theorem RunCommitted.dist {t : State} (h : RunCommitted s t) (htx : TxOk s) :
    cursorDist s.cfg.nTx t.tx.head.toNat t.tx.tail.toNat =
      cursorDist s.cfg.nTx s.tx.head.toNat s.tx.tail.toNat - t.tx.cnt.toNat := by
  obtain ⟨hhead, htail, -⟩ := htx
  rw [h.head, h.tail]
  exact cursorDist_advance_tail hhead htail (h.cnt.trans_le (run_le_cursorDist _ _ _))

/-! ### A byte sent -/

/-- What the flags of R29 say of an engine that can move a byte: the byte is inside the buffer, and the completion is not pending. -/
theorem Inv.xtx_enabled (h : Inv s) (hactive : s.tx.active = true) (hcnt : 0 < s.tx.cnt.toNat) :
    s.tx.src.toNat < s.cfg.nTx ∧ s.tx.tc = false := by
  obtain ⟨-, -, -, -, -, hflags, -, hok⟩ := h
  obtain ⟨hdone, -, -, hplace⟩ := hflags (outsideTxStart_of_active hok hactive)
  obtain ⟨hend, -⟩ := hplace hactive
  refine ⟨by omega, Bool.eq_false_of_not_eq_true fun htc => ?_⟩
  obtain ⟨-, hzero⟩ := hdone htc
  simp [hzero] at hcnt

theorem txSent_src (hcfg : s.cfg.Valid) (hsrc : s.tx.src.toNat < s.cfg.nTx) :
    (txSent s).tx.src.toNat = s.tx.src.toNat + 1 := by
  obtain ⟨-, ⟨-, hn⟩, -⟩ := hcfg
  show (s.tx.src + 1#16).toNat = s.tx.src.toNat + 1
  bv_omega

theorem txSent_cnt (hcnt : 0 < s.tx.cnt.toNat) : (txSent s).tx.cnt.toNat = s.tx.cnt.toNat - 1 := by
  show (s.tx.cnt - 1#16).toNat = s.tx.cnt.toNat - 1
  bv_omega

theorem txSent_tc (htc : s.tx.tc = false) : (txSent s).tx.tc = true ↔ (txSent s).tx.cnt = 0#16 := by
  have hlast : s.tx.cnt = 1#16 ↔ s.tx.cnt - 1#16 = 0#16 := by bv_omega
  simpa [txSent, txDescriptorStep, htc] using hlast

theorem byteAt_txSent (w : MemId) (j : Nat) : byteAt (txSent s) w j = byteAt s w j :=
  (byteAt_setTx rfl w j).trans (byteAt_emitTx s _ w j)

theorem xtxStep_sends (h : Inv s) (hactive : s.tx.active = true) (hcnt : 0 < s.tx.cnt.toNat) :
    xtxStep s = .next (txSent s) :=
  xtxStep_enabled hactive hcnt (h.xtx_enabled hactive hcnt).1

theorem step_xtx_sends {rest : List Turn} (h : Inv s) (hsched : s.sched = .xtx :: rest) (hactive : s.tx.active = true)
    (hcnt : 0 < s.tx.cnt.toNat) : step s = .next (txSent (s.setSched rest)) :=
  (step_turn hsched).trans (xtxStep_sends (s := s.setSched rest) h hactive hcnt)

end

end Sys2Proof.Machine

namespace Sys2Proof.Proofs
open Sys2Proof.Machine

/-- Settles O22: a full buffer is left alone, else the byte is stored and `TX.head` advances. -/
theorem txEnqStoresAndAdvances : Obligations.TxEnqStoresAndAdvances := by
  intro s b hcfg htx
  refine ⟨fun hfull => ?full, fun hfree => ?free⟩
  case full => exact answersOnly (i := .txEnq b) (execTxEnq_full b hfull)
  case free =>
    obtain ⟨hhead, -⟩ := id htx
    exact ⟨_, exec_txEnq_free b htx hfree, onlyUnit_answer (onlyUnit_setTx _) _ _,
      txAdvanced_head (s := txStored b s) hcfg hhead, rfl, rfl, rfl, rfl, rfl, byteAt_txStored_head b, txStored_bytesSameBut b,
      rfl⟩

/-- Settles O24: the three ends of `exec_txStart_eq`; what is started is the run of `RunCommitted`. -/
theorem txStartArmsCommitsAndStarts : Obligations.TxStartArmsCommitsAndStarts := by
  refine ⟨rfl, fun s hcfg htx => ?_⟩
  obtain ⟨-, htail, -⟩ := id htx
  rw [exec_txStart_eq]
  refine ⟨fun hactive => ?busy, fun hidle hempty => ?empty, fun hidle hsome => ?started⟩
  case busy => exact ⟨_, if_pos hactive, onlyAnswers_answer s _ _, byteAt_answer s _ _, rfl⟩
  case empty =>
    rw [hidle, if_neg nofun, if_pos ((cursorDist_eq_zero htail).2 hempty)]
    exact ⟨_, rfl, onlyAnswers_answer s _ _, byteAt_answer s _ _, rfl⟩
  case started =>
    have hrun := txStarted_committed hcfg htx
    rw [hidle, if_neg nofun, if_neg (mt (cursorDist_eq_zero htail).1 hsome)]
    exact ⟨_, rfl, onlyUnit_answer (onlyUnit_setTx _) _ _, byteAt_setTx rfl, rfl, rfl, rfl, hrun.head, hrun.src, hrun.cnt,
      hrun.tail, hrun.dist htx⟩

/-- Settles O25: the three ends of `exec_txEvt_eq`. -/
theorem txEvtAcknowledgesAndChains : Obligations.TxEvtAcknowledgesAndChains := by
  intro s hcfg htx
  obtain ⟨-, htail, -⟩ := id htx
  rw [exec_txEvt_eq]
  refine ⟨fun htc => ?spurious, fun htc hempty => ?last, fun htc hsome => ?chained⟩
  case spurious =>
    rw [htc, if_neg nofun]
    exact ⟨_, rfl, onlyAnswers_answer s _ _, byteAt_answer s _ _, rfl⟩
  case last =>
    rw [if_pos htc, if_pos ((cursorDist_eq_zero htail).2 hempty)]
    exact ⟨_, rfl, onlyUnit_answer (onlyUnit_setTx _) _ _, byteAt_setTx rfl, rfl, rfl, rfl, rfl, rfl, rfl, rfl⟩
  case chained =>
    have hrun := txStarted_committed (s := txAcknowledge s) hcfg htx
    rw [if_pos htc, if_neg (mt (cursorDist_eq_zero htail).1 hsome)]
    exact ⟨_, rfl, onlyUnit_answer (onlyUnit_setTx _) _ _, byteAt_setTx rfl, rfl, rfl, rfl, hrun.head, hrun.src, hrun.cnt,
      hrun.tail⟩

/-- Settles O26: by R29 the byte is inside the buffer and the completion is not pending before it (`Inv.xtx_enabled`). -/
theorem xtxMovesOneByte : Obligations.XtxMovesOneByte := by
  intro s rest hinv hsched hactive hcnt
  obtain ⟨hcfg, -⟩ := id hinv
  obtain ⟨hsrc, htc⟩ := hinv.xtx_enabled hactive hcnt
  have hbyte : byteAt (s.setSched rest) .tx s.tx.src.toNat = byteAt s .tx s.tx.src.toNat := byteAt_setSched s rest _ _
  refine ⟨_, step_xtx_sends hinv hsched hactive hcnt, congrArg (fun v => s.txOut ++ [v]) hbyte,
    txSent_src (s := s.setSched rest) hcfg hsrc, txSent_cnt (s := s.setSched rest) hcnt, txSent_tc (s := s.setSched rest) htc, rfl,
    rfl, hactive, fun u j => ?_, ⟨rfl, rfl, rfl, rfl, rfl, rfl, rfl⟩, rfl, rfl, rfl, rfl, rfl⟩
  exact (byteAt_txSent u j).trans (byteAt_setSched s rest u j)

end Sys2Proof.Proofs
end

section
/-! SUPPORT. What another agent does while `HOST` stands between the micro-steps of an operation (R77, R147, R163, R189). -/

namespace Sys2Proof.Machine

/-- From `s` to `t` `HOST` stands where it did, no byte of `TX` has changed, and a unit in which no transfer runs and no completion is
pending is as it was: so after a step of another agent. -/
structure LeavesUnitsAtRest (s t : State) : Prop where
  host : t.host = s.host
  txBytes : ∀ i, byteAt t .tx i = byteAt s .tx i
  tx : txAtRest s = true → t.tx = s.tx ∧ t.txOut = s.txOut
  rx : s.rx.run = false → t.rx = s.rx
  led : s.led.tc = false → s.led.xferEn = false → t.led = s.led ∧ t.ledOut = s.ledOut

section
variable {s : State}

theorem LeavesUnitsAtRest.refl (s : State) : LeavesUnitsAtRest s s :=
  ⟨rfl, fun _ => rfl, fun _ => ⟨rfl, rfl⟩, fun _ => rfl, fun _ _ => ⟨rfl, rfl⟩⟩

theorem leavesUnitsAtRest_answer (st : Status) (v : BitVec 16) : LeavesUnitsAtRest s (s.answer st v) :=
  ⟨rfl, fun _ => rfl, fun _ => ⟨rfl, rfl⟩, fun _ => rfl, fun _ _ => ⟨rfl, rfl⟩⟩

theorem execTxEvt_leavesUnitsAtRest (s : State) : LeadsTo (LeavesUnitsAtRest s) (execTxEvt s) := by
  rw [execTxEvt_eq]
  refine leadsTo_ite (fun htc => ?_) fun _ => leavesUnitsAtRest_answer _ _
  have hbusy : txAtRest s ≠ true := by simp [txAtRest, htc]
  exact leadsTo_ite
    (fun _ => ⟨rfl, fun _ => rfl, fun hrest => absurd hrest hbusy, fun _ => rfl, fun _ _ => ⟨rfl, rfl⟩⟩)
    (fun _ => ⟨rfl, fun _ => rfl, fun hrest => absurd hrest hbusy, fun _ => rfl, fun _ _ => ⟨rfl, rfl⟩⟩)

theorem execLedEvt_leavesUnitsAtRest (s : State) : LeadsTo (LeavesUnitsAtRest s) (execLedEvt s) := by
  rw [execLedEvt_eq]
  exact leadsTo_ite
    (fun htc => ⟨rfl, fun _ => rfl, fun _ => ⟨rfl, rfl⟩, fun _ => rfl, fun hdone _ => absurd (htc.symm.trans hdone) nofun⟩)
    (fun _ => leavesUnitsAtRest_answer _ _)

theorem xtxStep_leavesUnitsAtRest (s : State) : LeadsTo (LeavesUnitsAtRest s) (xtxStep s) := by
  refine leadsTo_ite (fun he => leadsTo_withByte fun v _ => ?_) fun _ => .refl s
  obtain ⟨hactive, -⟩ := xtxEnabled_iff.1 he
  have hbusy : txAtRest s ≠ true := by simp [txAtRest, hactive]
  exact ⟨rfl, fun _ => rfl, fun hrest => absurd hrest hbusy, fun _ => rfl, fun _ _ => ⟨rfl, rfl⟩⟩

theorem xrxStep_leavesUnitsAtRest (s : State) : LeadsTo (LeavesUnitsAtRest s) (xrxStep s) := by
  cases hrun : s.rx.run with
  | false => rw [xrxStep_disabled (.inl hrun)]; exact .refl s
  | true =>
    cases hin : s.rxIn with
    | nil => rw [xrxStep_disabled (.inr hin)]; exact .refl s
    | cons b bs =>
      simp only [xrxStep, hrun, hin]
      exact leadsTo_store fun _ =>
        ⟨rfl, fun _ => rfl, fun _ => ⟨rfl, rfl⟩, fun hstopped => absurd (hrun.symm.trans hstopped) nofun,
          fun _ _ => ⟨rfl, rfl⟩⟩

theorem xledStep_leavesUnitsAtRest (s : State) : LeadsTo (LeavesUnitsAtRest s) (xledStep s) := by
  refine leadsTo_ite (fun he => leadsTo_withByte fun v _ => ?_) fun _ => .refl s
  obtain ⟨hxfer, -⟩ := xledEnabled_iff.1 he
  exact ⟨rfl, fun _ => rfl, fun _ => ⟨rfl, rfl⟩, fun _ => rfl, fun _ hoff => absurd (hxfer.symm.trans hoff) nofun⟩

/-- Inside an operation `HOST` passes a turn for a whole one; every other turn but its own and a reset is a handler's or an engine's,
or supplies a byte to `RX`. -/
theorem takeTurn_leavesUnitsAtRest {turn : Turn} (hother : turn ≠ .host) (hreset : turn ≠ .reset) (hinside : s.host ≠ .idle) :
    LeadsTo (LeavesUnitsAtRest s) (takeTurn turn s) := by
  cases turn with
  | host => exact absurd rfl hother
  | reset => exact absurd rfl hreset
  | hostOp => rw [takeTurn, hostOpTurn_inside hinside]; exact .refl s
  | evt e =>
    cases e with
    | tx => exact execTxEvt_leavesUnitsAtRest s
    | led => exact execLedEvt_leavesUnitsAtRest s
  | xtx => exact xtxStep_leavesUnitsAtRest s
  | xrx => exact xrxStep_leavesUnitsAtRest s
  | xled => exact xledStep_leavesUnitsAtRest s
  | supply b => exact ⟨rfl, fun _ => rfl, fun _ => ⟨rfl, rfl⟩, fun _ => rfl, fun _ _ => ⟨rfl, rfl⟩⟩

theorem step_leavesUnitsAtRest {t : State} {turn : Turn} {rest : List Turn} (hsched : s.sched = turn :: rest)
    (hother : turn ≠ .host) (hreset : turn ≠ .reset) (hinside : s.host ≠ .idle) (hstep : step s = .next t) :
    LeavesUnitsAtRest s t := by
  rw [step_turn hsched] at hstep
  have h := (takeTurn_leavesUnitsAtRest (s := s.setSched rest) hother hreset hinside).of_next hstep
  exact ⟨h.host, h.txBytes, h.tx, h.rx, h.led⟩

/-! ### Inside an arming operation its unit is at rest -/

theorem Inv.txAtRest (h : Inv s)
    (hp : s.host = .txStartS2 ∨ (∃ a r, s.host = .txStartS3 a r) ∨ (∃ a r, s.host = .txStartS4 a r) ∨ s.host = .txStartS5) :
    txAtRest s = true := by
  obtain ⟨-, -, -, -, -, -, -, hok⟩ := h
  obtain hp | ⟨a, r, hp⟩ | ⟨a, r, hp⟩ | hp := hp <;> rw [← setHost_of_host_eq hp] at hok
  · exact hok
  · exact (hostOk_txStartS3.1 hok).1
  · exact (hostOk_txStartS4.1 hok).1
  · exact (hostOk_txStartS5.1 hok).1

theorem Inv.rxStopped (h : Inv s) (hp : s.host = .rxStartS2 ∨ s.host = .rxStartS3 ∨ s.host = .rxStartS4) : s.rx.run = false := by
  obtain ⟨-, -, -, -, -, -, -, hok⟩ := h
  obtain hp | hp | hp := hp <;> rw [← setHost_of_host_eq hp] at hok
  · exact hostOk_rxStartS2.1 hok
  · exact (hostOk_rxStartS3.1 hok).1
  · exact (hostOk_rxStartS4.1 hok).1

theorem Inv.ledCannotRun (h : Inv s)
    (hp : s.host = .ledUpdateS2 ∨ s.host = .ledUpdateS3 ∨ s.host = .ledUpdateS4 ∨ s.host = .ledUpdateS5) :
    s.led.tc = false ∧ s.led.xferEn = false := by
  obtain ⟨-, -, -, -, -, -, hflags, hok⟩ := h
  have hoff (hclaimed : ledClaimed s = true) : s.led.tc = false ∧ s.led.xferEn = false := (ledClaimed_iff.1 hclaimed).2
  obtain hp | hp | hp | hp := hp <;> rw [← setHost_of_host_eq hp] at hok
  · obtain ⟨-, hidle, -⟩ := hflags (by rw [hp]; rfl)
    obtain ⟨htc, -, hxfer, -⟩ := hidle (hostOk_ledUpdateS2.1 hok)
    exact ⟨htc, hxfer⟩
  · exact hoff (hostOk_ledUpdateS3.1 hok).1
  · exact hoff (hostOk_ledUpdateS4.1 hok).1
  · exact hoff (hostOk_ledUpdateS5.1 hok).1

end

end Sys2Proof.Machine

namespace Sys2Proof.Proofs
open Sys2Proof.Machine

/-- Settles O23: s2 is the store at `TX.head`, s3 moves `TX.head`, and no other agent writes a byte of `TX` (`LeavesUnitsAtRest`). -/
theorem enqueueStoresBeforeHeadMoves : Obligations.EnqueueStoresBeforeHeadMoves := by
  intro s h rest hinv
  obtain ⟨hcfg, -, ⟨hhead, -⟩, -, -, -, -, hok⟩ := id hinv
  refine ⟨fun b hsched hp => ?store, fun turn t hsched hother hreset hp hstep => ?between, fun hsched hp => ?advance⟩
  case store =>
    rw [← setHost_of_host_eq hp] at hok
    obtain ⟨rfl, -⟩ := hostOk_txEnqS2.1 hok
    have hstep : step s = .next ((txStored b (s.setSched rest)).setHost (.txEnqS3 s.tx.head)) := by
      rw [step_host_inside hsched hp nofun, hostMicro, txEnqStore, storeByte_inside (u := .tx) (s := s.setSched rest) b hhead]
      rfl
    exact ⟨_, hstep, rfl, byteAt_txStored_head (s := s.setSched rest) b,
      fun v j hother => txStored_bytesSameBut (s := s.setSched rest) b v j hother, rfl, rfl, rfl⟩
  case between =>
    have hleaves := step_leavesUnitsAtRest hsched hother hreset (by rw [hp]; nofun) hstep
    exact ⟨hleaves.txBytes _, hleaves.host.trans hp⟩
  case advance =>
    rw [← setHost_of_host_eq hp] at hok
    obtain ⟨rfl, -⟩ := hostOk_txEnqS3.1 hok
    have hstep : step s = .next ((txAdvanced ((s.setSched rest).setHost .idle)).answer .ok 0#16) :=
      step_host_inside hsched hp nofun
    exact ⟨_, hstep, rfl, byteAt_txAdvanced (s := (s.setSched rest).setHost .idle),
      txAdvanced_head (s := (s.setSched rest).setHost .idle) hcfg hhead, rfl, rfl⟩

/-- Settles O31: the invariant keeps the unit at rest inside the operation, and no other agent writes a unit at rest. -/
theorem armingIsUndisturbed : Obligations.ArmingIsUndisturbed := by
  intro s t turn rest hinv hsched hother hreset hstep
  have hleaves (hinside : s.host ≠ .idle) := step_leavesUnitsAtRest hsched hother hreset hinside hstep
  refine ⟨fun hp => ?tx, fun hp => ?rx, fun hp => ?led⟩
  case tx =>
    have h := hleaves fun hidle => by simp [hidle] at hp
    obtain ⟨htx, hout⟩ := h.tx (hinv.txAtRest hp)
    exact ⟨htx, hout, h.host⟩
  case rx =>
    have h := hleaves fun hidle => by simp [hidle] at hp
    exact ⟨h.rx (hinv.rxStopped hp), h.host⟩
  case led =>
    have h := hleaves fun hidle => by simp [hidle] at hp
    obtain ⟨htc, hxfer⟩ := hinv.ledCannotRun hp
    obtain ⟨hled, hout⟩ := h.led htc hxfer
    exact ⟨hled, hout, h.host⟩

end Sys2Proof.Proofs
end

section
/-! SUPPORT. The bytes sent and still to be sent by TX (R142, R240): what each operation and each turn makes of them. -/

namespace Sys2Proof.Machine

/-! ### Weakening what an answer leads to -/

theorem LeadsTo.imp {P Q : State → Prop} {r : Result} (h : LeadsTo P r) (hPQ : ∀ t, P t → Q t) : LeadsTo Q r := by
  cases r with
  | next t => exact hPQ t h
  | fault _ => trivial
  | refused _ => trivial

/-! ### The bytes of a ring in two parts -/

theorem ringBytes_add (s : State) (u : MemId) (n t a b : Nat) :
    ringBytes s u n t (a + b) = ringBytes s u n t a ++ ringBytes s u n ((t + a) % n) b := by
  simp [ringBytes, List.range_add, Nat.mod_add_mod, Nat.add_assoc]

/-- A run that does not pass the end of the array is read without wrapping. -/
theorem ringBytes_run {s : State} {u : MemId} {n t count : Nat} (hend : t + count ≤ n) :
    ringBytes s u n t count = (List.range count).map fun k => byteAt s u (t + k) :=
  List.map_congr_left fun k hk => by
    rw [List.mem_range] at hk
    rw [Nat.mod_eq_of_lt (by omega)]

section
variable {s t : State}

/-! ### The bytes to be sent, under each change of `TX` -/

theorem txInFlight_nil (h : s.tx.cnt = 0#16) : txInFlight s = [] := by simp [txInFlight, h]

theorem txResident_nil (h : cursorDist s.cfg.nTx s.tx.head.toNat s.tx.tail.toNat = 0) : txResident s = [] := by
  rw [txResident, h]; rfl

/-- While no transfer is active, and no `TX.START` is past s2, no byte is in flight (R29(b)). -/
theorem TxFlagsOk.inFlight_nil (h : TxFlagsOk s) (hidle : s.tx.active = false) : txInFlight s = [] := by
  obtain ⟨-, hstopped, -⟩ := h
  exact txInFlight_nil (hstopped hidle).2

/-- A committed run goes from the resident bytes to those in flight; the bytes and their order are the same (R126, R141). -/
theorem RunCommitted.unsent (h : RunCommitted s t) (htx : TxOk s) (hcfg : t.cfg = s.cfg)
    (hbytes : ∀ i, byteAt t .tx i = byteAt s .tx i) : txInFlight t ++ txResident t = txResident s := by
  have hdist := h.dist htx
  obtain ⟨-, htail, -⟩ := htx
  have hle : t.tx.cnt.toNat ≤ cursorDist s.cfg.nTx s.tx.head.toNat s.tx.tail.toNat :=
    h.cnt.trans_le (run_le_cursorDist _ _ _)
  have hend : s.tx.tail.toNat + t.tx.cnt.toNat ≤ s.cfg.nTx := by rw [h.cnt]; exact add_run_le _ htail
  have hinFlight : txInFlight t = ringBytes s .tx s.cfg.nTx s.tx.tail.toNat t.tx.cnt.toNat := by
    rw [ringBytes_run hend, ← h.src]
    exact List.map_congr_left fun k _ => hbytes _
  have hresident : txResident t = ringBytes s .tx s.cfg.nTx ((s.tx.tail.toNat + t.tx.cnt.toNat) % s.cfg.nTx)
      (cursorDist s.cfg.nTx s.tx.head.toNat s.tx.tail.toNat - t.tx.cnt.toNat) := by
    rw [txResident, hcfg, hdist, h.tail]
    exact ringBytes_congr fun k _ => hbytes _
  rw [hinFlight, hresident, ← ringBytes_add, Nat.add_sub_cancel' hle, txResident]

/-- The engine takes the oldest byte in flight. -/
theorem txInFlight_eq_cons (hcfg : s.cfg.Valid) (hcnt : 0 < s.tx.cnt.toNat) (hsrc : s.tx.src.toNat < s.cfg.nTx) :
    txInFlight s = byteAt s .tx s.tx.src.toNat :: txInFlight (txSent s) := by
  obtain ⟨count, hcount⟩ := Nat.exists_eq_succ_of_ne_zero hcnt.ne'
  have hcnt' : (txSent s).tx.cnt.toNat = count := by rw [txSent_cnt hcnt, hcount]; rfl
  simp only [txInFlight, hcnt', hcount, List.range_succ_eq_map, List.map_cons, List.map_map, txSent_src hcfg hsrc]
  refine congrArg (_ :: ·) (List.map_congr_left fun k _ => ?_)
  rw [byteAt_txSent, Nat.add_assoc, Nat.add_comm 1]
  rfl

/-- A free buffer has room for a byte (R121). -/
theorem txRoom (htx : TxOk s) (hfree : inc s.cfg.nTx s.tx.head.toNat ≠ s.tx.tail.toNat) :
    cursorDist s.cfg.nTx s.tx.head.toNat s.tx.tail.toNat < s.cfg.nTx - 1 := by
  obtain ⟨hhead, htail, -⟩ := htx
  exact Nat.lt_of_le_of_ne (Nat.le_sub_one_of_lt (cursorDist_lt hhead htail)) (mt (inc_eq_iff_cursorDist hhead htail).2 hfree)

/-- The slot at `TX.head` is none of the resident ones. -/
theorem txResident_txStored (b : Byte) (htx : TxOk s) : txResident (txStored b s) = txResident s := by
  obtain ⟨hhead, htail, -⟩ := htx
  refine ringBytes_congr fun k hk => txStored_bytesSameBut b _ _ fun hslot => ?_
  have hcount := cursorDist_eq_of_add_mod htail (hk.trans (cursorDist_lt hhead htail)) hslot.2
  exact absurd hcount hk.ne'

/-- Outside the hazard of R240 it is none of those in flight either. -/
theorem txInFlight_txStored (b : Byte) (htx : TxOk s) (hflags : TxFlagsOk s) (hroom : txUnsentCount s ≤ s.cfg.nTx - 1) :
    txInFlight (txStored b s) = txInFlight s := by
  obtain ⟨hhead, htail, -⟩ := htx
  refine List.map_congr_left fun k hk => txStored_bytesSameBut b _ _ fun hslot => ?_
  replace hk : k < s.tx.cnt.toNat := List.mem_range.1 hk
  obtain ⟨-, hstopped, -, hplace⟩ := hflags
  have hactive : s.tx.active = true := by
    by_contra hidle
    obtain ⟨-, hzero⟩ := hstopped (Bool.eq_false_of_not_eq_true hidle)
    simp [hzero] at hk
  obtain ⟨-, hend⟩ := hplace hactive
  have htotal : s.tx.cnt.toNat + (cursorDist s.cfg.nTx s.tx.head.toNat s.tx.tail.toNat + 1) ≤ s.cfg.nTx := by
    unfold txUnsentCount at hroom
    omega
  have hother := ringSlots_disjoint hend htotal hk (Nat.lt_succ_self _)
  rw [add_cursorDist_mod hhead htail] at hother
  exact hother hslot.2

/-- Moving `TX.head` puts the byte of its slot behind the resident ones (R123). -/
theorem txResident_txAdvanced (hcfg : s.cfg.Valid) (htx : TxOk s) (hfree : inc s.cfg.nTx s.tx.head.toNat ≠ s.tx.tail.toNat) :
    txResident (txAdvanced s) = txResident s ++ [byteAt s .tx s.tx.head.toNat] := by
  have hroom := txRoom htx hfree
  obtain ⟨hhead, htail, -⟩ := htx
  calc txResident (txAdvanced s)
      = ringBytes (txAdvanced s) .tx s.cfg.nTx s.tx.tail.toNat
          (cursorDist s.cfg.nTx (inc s.cfg.nTx s.tx.head.toNat) s.tx.tail.toNat) := by rw [← txAdvanced_head hcfg hhead]; rfl
    _ = txResident s ++ [byteAt (txAdvanced s) .tx s.tx.head.toNat] :=
        ringBytes_inc_head hhead htail hroom fun _ _ _ => byteAt_txAdvanced _ _
    _ = txResident s ++ [byteAt s .tx s.tx.head.toNat] := by rw [byteAt_txAdvanced]

/-! ### The stream -/

/-- From `s` to `t` the bytes sent and still to be sent grow by `bs`, and what has been sent stays sent. -/
def StreamGrows (bs : List Byte) (s t : State) : Prop := txStream t = txStream s ++ bs ∧ s.txOut <+: t.txOut

theorem StreamGrows.refl (s : State) : StreamGrows [] s s := ⟨(List.append_nil _).symm, [], List.append_nil _⟩

theorem StreamGrows.trans {u : State} {bs bs' : List Byte} (h : StreamGrows bs s t) (h' : StreamGrows bs' t u) :
    StreamGrows (bs ++ bs') s u := by
  obtain ⟨hstream, hout⟩ := h
  obtain ⟨hstream', hout'⟩ := h'
  exact ⟨by rw [hstream', hstream, List.append_assoc], hout.trans hout'⟩

/-- Nothing has been sent: the unsent bytes have grown. -/
theorem streamGrows_of_unsent {bs : List Byte} (hout : t.txOut = s.txOut) (h : txUnsent t = txUnsent s ++ bs) :
    StreamGrows bs s t :=
  ⟨by rw [txStream, txStream, hout, h, List.append_assoc], [], by rw [hout, List.append_nil]⟩

/-- From `s` to `t` unit `TX` and its stream are as before, and so is whether `HOST` has armed a run and not committed it. -/
structure LeavesTx (s t : State) : Prop where
  cfg : t.cfg = s.cfg
  epoch : t.epoch = s.epoch
  tx : t.tx = s.tx
  txOut : t.txOut = s.txOut
  armed : runStillResident t.host = runStillResident s.host

theorem LeavesTx.grows (h : LeavesTx s t) : StreamGrows [] s t := by
  have hbytes (i : Nat) : byteAt t .tx i = byteAt s .tx i :=
    byteAt_congr (u := .tx) (congrArg Tx.mem h.tx) h.epoch i
  refine streamGrows_of_unsent h.txOut ?_
  simp only [txUnsent, txResident, txInFlight, ringBytes, h.cfg, h.tx, h.armed, hbytes, List.append_nil]

theorem leavesTx_of_onlyUnit {u : MemId} (hu : u ≠ .tx) (h : OnlyUnit u s t) : LeavesTx s t := by
  cases u with
  | tx => exact absurd rfl hu
  | rb =>
    obtain ⟨⟨hcfg, -, hhost, -, -, hepoch, -⟩, htx, -, -, hout, -⟩ := h
    exact ⟨hcfg, hepoch, htx, hout, congrArg runStillResident hhost⟩
  | rx =>
    obtain ⟨⟨hcfg, -, hhost, -, -, hepoch, -⟩, -, htx, -, hout, -⟩ := h
    exact ⟨hcfg, hepoch, htx, hout, congrArg runStillResident hhost⟩
  | led =>
    obtain ⟨⟨hcfg, -, hhost, -, -, hepoch, -⟩, -, htx, -, hout⟩ := h
    exact ⟨hcfg, hepoch, htx, hout, congrArg runStillResident hhost⟩

/-! ### The handlers and the engines -/

theorem execTxEvt_grows (h : Inv s) : LeadsTo (StreamGrows [] s) (exec .txEvt s) := by
  rw [exec_txEvt_eq]
  refine leadsTo_ite (fun htc => ?_) fun _ => .refl s
  obtain ⟨hcfg, -, htx, -, -, hflags, -, hok⟩ := h
  have hout := outsideTxStart_of_tc hok htc
  have hcommitted := txUnsent_committed (runStillResident_of_outside hout)
  obtain ⟨hdone, -⟩ := hflags hout
  have hunsent : txUnsent s = txResident s := by rw [hcommitted, txInFlight_nil (hdone htc).2, List.nil_append]
  refine leadsTo_ite (fun _ => ?last) fun _ => ?chained
  case last => exact .refl s
  case chained =>
    have hrun := (txStarted_committed (s := txAcknowledge s) hcfg htx).unsent htx rfl fun _ => rfl
    refine streamGrows_of_unsent rfl ?_
    rw [hunsent, List.append_nil]
    exact (txUnsent_committed (s := txStarted (txAcknowledge s)) (runStillResident_of_outside hout)).trans hrun

theorem xtxStep_grows (h : Inv s) : LeadsTo (StreamGrows [] s) (xtxStep s) := by
  by_cases he : xtxEnabled s = true
  · obtain ⟨hactive, hcnt⟩ := xtxEnabled_iff.1 he
    obtain ⟨hcfg, -, -, -, -, -, -, hok⟩ := id h
    obtain ⟨hsrc, -⟩ := h.xtx_enabled hactive hcnt
    have hout := runStillResident_of_outside (outsideTxStart_of_active hok hactive)
    have hcons := txInFlight_eq_cons hcfg hcnt hsrc
    have hresident : txResident (txSent s) = txResident s := ringBytes_congr fun k _ => byteAt_txSent _ _
    rw [xtxStep_sends h hactive hcnt]
    refine ⟨?_, _, rfl⟩
    rw [txStream, txStream, txUnsent_committed hout, txUnsent_committed (s := txSent s) hout, hcons, hresident]
    simp [txSent]
  · rw [xtxStep, if_neg he]; exact .refl s

theorem xrxStep_leavesTx (s : State) : LeadsTo (LeavesTx s) (xrxStep s) := by
  unfold xrxStep
  split
  · exact leadsTo_store fun _ => ⟨rfl, rfl, rfl, rfl, rfl⟩
  · exact ⟨rfl, rfl, rfl, rfl, rfl⟩
  · exact ⟨rfl, rfl, rfl, rfl, rfl⟩

theorem xledStep_leavesTx (s : State) : LeadsTo (LeavesTx s) (xledStep s) :=
  leadsTo_ite (fun _ => leadsTo_withByte fun _ _ => ⟨rfl, rfl, rfl, rfl, rfl⟩) fun _ => ⟨rfl, rfl, rfl, rfl, rfl⟩

/-! ### An enqueued byte, in the two micro-steps -/

/-- The store at s2 adds no byte yet, and outside the hazard of R240 changes none of those still to be sent. -/
theorem txStored_grows (b : Byte) (htx : TxOk s) (hflags : TxFlagsOk s) (hout : runStillResident s.host = false)
    (hroom : txUnsentCount s ≤ s.cfg.nTx - 1) : StreamGrows [] s (txStored b s) := by
  refine streamGrows_of_unsent rfl ?_
  rw [txUnsent_committed hout, txUnsent_committed (s := txStored b s) hout, txInFlight_txStored b htx hflags hroom,
    txResident_txStored b htx, List.append_nil]

/-- The move of `TX.head` at s3 adds the byte in the slot. -/
theorem txAdvanced_grows {v : Byte} (hcfg : s.cfg.Valid) (htx : TxOk s) (hout : runStillResident s.host = false)
    (hfree : inc s.cfg.nTx s.tx.head.toNat ≠ s.tx.tail.toNat) (hbyte : byteAt s .tx s.tx.head.toNat = v) :
    StreamGrows [v] s (txAdvanced s) := by
  refine streamGrows_of_unsent rfl ?_
  rw [txUnsent_committed hout, txUnsent_committed (s := txAdvanced s) hout, txResident_txAdvanced hcfg htx hfree, hbyte,
    List.append_assoc]
  rfl

/-! ### The operations of an idle `HOST`, whole -/

/-- The byte an operation adds, run whole: that of a `TX.ENQ` which finds a free slot. -/
def acceptedByInstr (i : Instr) (s : State) : List Byte :=
  match i with
  | .txEnq b => if isFull s.cfg.nTx s.tx.head s.tx.tail then [] else [b]
  | _ => []

theorem execTxEnq_grows (b : Byte) (h : Inv (s.setHost .idle))
    (hroom : isFull s.cfg.nTx s.tx.head s.tx.tail = false → txUnsentCount s ≤ s.cfg.nTx - 1) :
    LeadsTo (StreamGrows (acceptedByInstr (.txEnq b) s) (s.setHost .idle)) (exec (.txEnq b) (s.setHost .idle)) := by
  unfold acceptedByInstr
  obtain ⟨hcfg, -, htx, -, -, hflags, -⟩ := h
  cases hfull : isFull s.cfg.nTx s.tx.head s.tx.tail with
  | true =>
    rw [exec, execTxEnq_full (s := s.setHost .idle) b ((isFull_iff _ _ _).1 hfull)]
    exact .refl (s.setHost .idle)
  | false =>
    have hfree := (isFull_eq_false _ _ _).1 hfull
    have hstored := txStored_grows (s := s.setHost .idle) b htx (hflags rfl) rfl (hroom hfull)
    have hadvanced := txAdvanced_grows (s := txStored b (s.setHost .idle)) hcfg (txStored_ok b htx) rfl hfree
      (byteAt_txStored_head (s := s.setHost .idle) b)
    rw [exec_txEnq_free (s := s.setHost .idle) b htx hfree]
    exact hstored.trans hadvanced

theorem execTxStart_grows (h : Inv (s.setHost .idle)) :
    LeadsTo (StreamGrows [] (s.setHost .idle)) (exec .txStart (s.setHost .idle)) := by
  obtain ⟨hcfg, -, htx, -, -, hflags, -⟩ := h
  rw [exec_txStart_eq]
  refine leadsTo_ite (fun _ => .refl _) fun hidle => leadsTo_ite (fun _ => .refl _) fun _ => ?started
  case started =>
    have hrun := (txStarted_committed (s := s.setHost .idle) hcfg htx).unsent htx rfl fun _ => rfl
    have hinFlight := (hflags rfl).inFlight_nil (Bool.eq_false_of_not_eq_true hidle)
    refine streamGrows_of_unsent rfl ?_
    rw [txUnsent_committed (s := s.setHost .idle) rfl, hinFlight, List.nil_append, List.append_nil]
    exact (txUnsent_committed (s := txStarted (s.setHost .idle)) rfl).trans hrun

/-- An operation of another unit. -/
theorem exec_grows_of_otherUnit {i : Instr} (hi : unitOf i ≠ .tx) : LeadsTo (StreamGrows [] s) (exec i s) :=
  (exec_onlyUnit i s).imp fun _ honly => (leavesTx_of_onlyUnit hi honly).grows

theorem acceptedByWord_of_instr {w : Cmd} {i : Instr} (hdecode : decode s.cfg w = .instr i) :
    acceptedByWord w s = acceptedByInstr i s := by
  simp only [acceptedByWord, hdecode]
  cases i <;> rfl

theorem acceptedByWord_of_illegal {w : Cmd} {why : Illegal} (hdecode : decode s.cfg w = .illegal why) :
    acceptedByWord w s = [] := by
  simp only [acceptedByWord, hdecode]

theorem exec_grows (i : Instr) (h : Inv (s.setHost .idle)) (hroom : acceptedByInstr i s ≠ [] → txUnsentCount s ≤ s.cfg.nTx - 1) :
    LeadsTo (StreamGrows (acceptedByInstr i s) (s.setHost .idle)) (exec i (s.setHost .idle)) := by
  cases i with
  | txEnq b => exact execTxEnq_grows b h fun hfree => hroom (by simp [acceptedByInstr, hfree])
  | txStart => exact execTxStart_grows h
  | txEvt => exact execTxEvt_grows h
  | rbPush | rbPop | rbAvail | rbIsEmpty | rbIsFull | rxStart | rxStop | rxAvail | rxRead | ledClear | ledWrite | ledUpdate
  | ledEvt => exact exec_grows_of_otherUnit nofun

theorem present_grows (w : Cmd) (h : Inv (s.setHost .idle)) (hroom : acceptedByWord w s ≠ [] → txUnsentCount s ≤ s.cfg.nTx - 1) :
    LeadsTo (StreamGrows (acceptedByWord w s) (s.setHost .idle)) (present w (s.setHost .idle)) := by
  have hcfg : (s.setHost .idle).cfg = s.cfg := rfl
  cases hdecode : decode s.cfg w with
  | illegal why =>
    rw [acceptedByWord_of_illegal hdecode, present, hcfg, hdecode]
    exact StreamGrows.refl (s.setHost .idle)
  | instr i =>
    rw [acceptedByWord_of_instr hdecode] at hroom ⊢
    rw [present, hcfg, hdecode]
    exact exec_grows i h hroom

/-! ### The micro-steps of `HOST` -/

/-- A micro-step of the encoder. -/
theorem encoderMicro_leavesTx {pos : Nat → HostPos} {code : Nat → Byte} {base total j : Nat} {p : HostPos}
    (hp : runStillResident p = false) (hpos : ∀ j, runStillResident (pos j) = false) :
    LeadsTo (LeavesTx (s.setHost p)) (encoderMicro pos code base total j (s.setHost p)) :=
  leadsTo_store fun _ => leadsTo_ite (fun _ => ⟨rfl, rfl, rfl, rfl, (hpos _).trans hp.symm⟩)
    fun _ => ⟨rfl, rfl, rfl, rfl, hp.symm⟩

theorem ledClearMicro_leavesTx (i : Nat) {p : HostPos} (hp : runStillResident p = false) :
    LeadsTo (LeavesTx (s.setHost p)) (ledClearMicro i (s.setHost p)) := by
  by_cases hi : i < (s.setHost p).cfg.frameBytes
  · rw [ledClearMicro_eq hi]; exact encoderMicro_leavesTx hp fun _ => rfl
  · rw [ledClearMicro, if_neg hi]; exact ⟨rfl, rfl, rfl, rfl, hp.symm⟩

/-- Before its second micro-step an operation has written nothing of `TX`, but for the handler. -/
theorem hostBegin_leavesTx {i : Instr} (hi : i ≠ .txEvt) (s : State) :
    LeadsTo (LeavesTx (s.setHost .idle)) (hostBegin i (s.setHost .idle)) := by
  cases i with
  | rbPush b => simp only [hostBegin]; cases rbPushSlot (s.setHost .idle) <;> exact ⟨rfl, rfl, rfl, rfl, rfl⟩
  | rbPop =>
    simp only [hostBegin]
    cases rbPopSlot (s.setHost .idle) with
    | none => trivial
    | some c => exact ⟨rfl, rfl, rfl, rfl, rfl⟩
  | txEnq b => simp only [hostBegin]; cases txEnqSlot (s.setHost .idle) <;> exact ⟨rfl, rfl, rfl, rfl, rfl⟩
  | txStart => exact leadsTo_ite (fun _ => ⟨rfl, rfl, rfl, rfl, rfl⟩) fun _ => ⟨rfl, rfl, rfl, rfl, rfl⟩
  | txEvt => exact absurd rfl hi
  | rxStart => exact leadsTo_ite (fun _ => trivial) fun _ => ⟨rfl, rfl, rfl, rfl, rfl⟩
  | rxRead => simp only [hostBegin, rxReadLoad]; exact leadsTo_withByte fun _ _ => ⟨rfl, rfl, rfl, rfl, rfl⟩
  | ledClear => exact ledClearMicro_leavesTx 0 rfl
  | ledWrite idx c => exact leadsTo_ite (fun _ => encoderMicro_leavesTx rfl fun _ => rfl) fun _ => ⟨rfl, rfl, rfl, rfl, rfl⟩
  | ledUpdate => exact leadsTo_ite (fun _ => ⟨rfl, rfl, rfl, rfl, rfl⟩) fun _ => ⟨rfl, rfl, rfl, rfl, rfl⟩
  | ledEvt => exact leadsTo_ite (fun _ => ⟨rfl, rfl, rfl, rfl, rfl⟩) fun _ => ⟨rfl, rfl, rfl, rfl, rfl⟩
  | rbAvail | rbIsEmpty | rbIsFull | rxStop | rxAvail => exact ⟨rfl, rfl, rfl, rfl, rfl⟩

theorem presentFirst_grows (w : Cmd) (h : Inv (s.setHost .idle)) :
    LeadsTo (StreamGrows [] (s.setHost .idle)) (presentFirst w (s.setHost .idle)) := by
  unfold presentFirst
  cases decode (s.setHost .idle).cfg w with
  | illegal why => exact StreamGrows.refl (s.setHost .idle)
  | instr i =>
    by_cases hi : i = .txEvt
    · subst hi; exact execTxEvt_grows h
    · exact (hostBegin_leavesTx hi s).imp fun _ => LeavesTx.grows

/-- The micro-step of `HOST` at `p` makes the bytes sent and still to be sent grow as `acceptedByMicroStep` says. -/
abbrev MicroStepGrows (p : HostPos) : Prop :=
  ∀ s : State, Inv (s.setHost p) → (atEnqueueStore p = true → txUnsentCount s ≤ s.cfg.nTx - 1) →
    LeadsTo (StreamGrows (acceptedByMicroStep (s.setHost p)) (s.setHost p)) (hostMicro p (s.setHost p))

theorem txEnqS2_grows (c : Cursor) (b : Byte) : MicroStepGrows (.txEnqS2 c b) := by
  intro s h hroom
  obtain ⟨-, -, htx, -, -, hflags, -, hok⟩ := h
  obtain ⟨rfl, -⟩ := hostOk_txEnqS2.1 hok
  exact leadsTo_store fun _ => txStored_grows (s := s.setHost (.txEnqS2 s.tx.head b)) b htx (hflags rfl) rfl (hroom rfl)

theorem txEnqS3_grows (c : Cursor) : MicroStepGrows (.txEnqS3 c) := by
  intro s h _
  obtain ⟨hcfg, -, htx, -, -, -, -, hok⟩ := h
  obtain ⟨rfl, hfree⟩ := hostOk_txEnqS3.1 hok
  exact txAdvanced_grows (s := s.setHost (.txEnqS3 s.tx.head)) hcfg htx rfl ((isFull_eq_false _ _ _).1 hfree) rfl

/-- s3 arms the run, which stays resident: nothing was in flight before it (R147). -/
theorem txStartS3_grows (t r : Cursor) : MicroStepGrows (.txStartS3 t r) := by
  intro s h _
  obtain ⟨-, -, -, -, -, hflags, -, hok⟩ := h
  obtain ⟨hrest, -⟩ := hostOk_txStartS3.1 hok
  have hinFlight := (hflags rfl).inFlight_nil (txAtRest_iff.1 hrest).1
  refine streamGrows_of_unsent rfl ?_
  rw [txUnsent_committed (s := s.setHost (.txStartS3 t r)) rfl, hinFlight]
  exact (List.append_nil _).symm

/-- s4 moves `TX.tail` past the armed run: from now on its bytes are in flight. -/
theorem txStartS4_grows (t r : Cursor) : MicroStepGrows (.txStartS4 t r) := by
  intro s h _
  obtain ⟨hcfg, -, htx, -, -, -, -, hok⟩ := h
  obtain ⟨-, hrun, hsrc, hcnt⟩ := hostOk_txStartS4.1 hok
  obtain ⟨rfl, hr, -⟩ := txStartRun_eq_some hrun
  have hcommitted : RunCommitted s ((txStartCommit s.tx.tail r s).setHost .txStartS5) :=
    runCommitted_of_registers hcfg htx rfl hsrc hr hcnt rfl
  refine streamGrows_of_unsent rfl ?_
  exact (hcommitted.unsent htx rfl fun _ => rfl).trans (List.append_nil _).symm

/-- s5 starts the transfer: `TX.active` is not part of what is to be sent. -/
theorem txStartS5_grows : MicroStepGrows .txStartS5 := fun s _ _ => StreamGrows.refl (s.setHost .txStartS5)

/-- Whether the micro-step `HOST` stands before writes `TX`. -/
def hostWritesTx : HostPos → Bool
  | .txEnqS2 _ _ => true
  | .txEnqS3 _ => true
  | .txStartS3 _ _ => true
  | .txStartS4 _ _ => true
  | .txStartS5 => true
  | _ => false

theorem hostMicro_leavesTx {p : HostPos} (hp : hostWritesTx p = false) (s : State) :
    LeadsTo (LeavesTx (s.setHost p)) (hostMicro p (s.setHost p)) := by
  cases p with
  | txEnqS2 | txEnqS3 | txStartS3 | txStartS4 | txStartS5 => cases hp
  | rbPushS2 c b => exact leadsTo_store fun _ => ⟨rfl, rfl, rfl, rfl, rfl⟩
  | rbPopS2 c => simp only [hostMicro, rbPopLoad]; exact leadsTo_withByte fun _ _ => ⟨rfl, rfl, rfl, rfl, rfl⟩
  | txStartS2 =>
    simp only [hostMicro]
    cases txStartRun (s.setHost .txStartS2) <;> exact ⟨rfl, rfl, rfl, rfl, rfl⟩
  | ledClearAt i => exact ledClearMicro_leavesTx i rfl
  | ledWriteAt idx c b => exact encoderMicro_leavesTx rfl fun _ => rfl
  | idle | rbPushS3 | rbPopS3 | rxStartS2 | rxStartS3 | rxStartS4 | rxAvailS2 | rxReadS2 | ledUpdateS2 | ledUpdateS3 | ledUpdateS4
  | ledUpdateS5 => exact ⟨rfl, rfl, rfl, rfl, rfl⟩

theorem microStepGrows_of_leavesTx {p : HostPos} (hp : hostWritesTx p = false)
    (hnone : ∀ s : State, acceptedByMicroStep (s.setHost p) = [] := by exact fun _ => rfl) : MicroStepGrows p := by
  intro s _ _
  rw [hnone]
  exact (hostMicro_leavesTx hp s).imp fun _ => LeavesTx.grows

theorem hostMicro_grows (h : Inv s) (hroom : atEnqueueStore s.host = true → txUnsentCount s ≤ s.cfg.nTx - 1) :
    LeadsTo (StreamGrows (acceptedByMicroStep s) s) (hostMicro s.host s) := by
  have hgrows : MicroStepGrows s.host := by
    cases s.host with
    | txEnqS2 c b => exact txEnqS2_grows c b
    | txEnqS3 c => exact txEnqS3_grows c
    | txStartS3 t r => exact txStartS3_grows t r
    | txStartS4 t r => exact txStartS4_grows t r
    | txStartS5 => exact txStartS5_grows
    | _ => exact microStepGrows_of_leavesTx rfl
  exact hgrows s h hroom

/-! ### The turns -/

theorem hostTurn_grows (h : Inv s) (hroom : atEnqueueStore s.host = true → txUnsentCount s ≤ s.cfg.nTx - 1) :
    LeadsTo (StreamGrows (acceptedByMicroStep s) s) (hostTurn s) := by
  by_cases hidle : s.host = .idle
  · have hnone : acceptedByMicroStep s = [] := by simp [acceptedByMicroStep, hidle]
    rw [hnone]
    cases hprog : s.program with
    | nil => rw [hostTurn_nothing hidle hprog]; exact .refl s
    | cons w ws =>
      rw [hostTurn_idle hidle hprog]
      have hhost : (s.setProgram ws).setHost .idle = s.setProgram ws := setHost_of_host_eq hidle
      have hgrows := presentFirst_grows (s := s.setProgram ws) w (by rwa [hhost])
      rwa [hhost] at hgrows
  · rw [hostTurn_inside hidle]
    exact hostMicro_grows h hroom

theorem hostOpTurn_grows (h : Inv s) (hroom : acceptedByOperation s ≠ [] → txUnsentCount s ≤ s.cfg.nTx - 1) :
    LeadsTo (StreamGrows (acceptedByOperation s) s) (hostOpTurn s) := by
  by_cases hidle : s.host = .idle
  · cases hprog : s.program with
    | nil =>
      have hnone : acceptedByOperation s = [] := by simp [acceptedByOperation, hprog]
      rw [hnone, hostOpTurn_nothing hprog]
      exact .refl s
    | cons w ws =>
      have hword : acceptedByOperation s = acceptedByWord w s := by simp [acceptedByOperation, hidle, hprog]
      rw [hword] at hroom ⊢
      rw [hostOpTurn_idle hidle hprog]
      have hhost : (s.setProgram ws).setHost .idle = s.setProgram ws := setHost_of_host_eq hidle
      have hgrows := present_grows (s := s.setProgram ws) w (by rwa [hhost]) hroom
      rwa [hhost] at hgrows
  · have hnone : acceptedByOperation s = [] := by simp [acceptedByOperation, hidle]
    rw [hnone, hostOpTurn_inside hidle]
    exact .refl s

theorem takeTurn_grows {turn : Turn} (h : Inv s) (hreset : turn ≠ .reset)
    (hroom : enqueueStores turn s = true → txUnsentCount s ≤ s.cfg.nTx - 1) :
    LeadsTo (StreamGrows (acceptedByTurn turn s) s) (takeTurn turn s) := by
  cases turn with
  | host => exact hostTurn_grows h hroom
  | hostOp => exact hostOpTurn_grows h fun hsome => hroom (by simpa [enqueueStores] using hsome)
  | evt e =>
    cases e with
    | tx => exact execTxEvt_grows h
    | led => exact exec_grows_of_otherUnit (i := .ledEvt) nofun
  | xtx => exact xtxStep_grows h
  | xrx => exact (xrxStep_leavesTx s).imp fun _ => LeavesTx.grows
  | xled => exact (xledStep_leavesTx s).imp fun _ => LeavesTx.grows
  | supply b => exact StreamGrows.refl s
  | reset => exact absurd rfl hreset

end

end Sys2Proof.Machine

namespace Sys2Proof.Proofs
open Sys2Proof.Machine

/-- Settles O27, by the agent whose turn it is (`takeTurn_grows`). -/
theorem transmitKeepsEnqueueOrder : Obligations.TransmitKeepsEnqueueOrder := by
  intro s t turn rest hinv hsched hreset hroom hstep
  have hturn : acceptedByTurn turn (s.setSched rest) = acceptedByTurn turn s := by cases turn <;> rfl
  have hstores : enqueueStores turn (s.setSched rest) = enqueueStores turn s := by cases turn <;> rfl
  rw [step_turn hsched] at hstep
  have hgrows := (takeTurn_grows (s := s.setSched rest) hinv hreset (hstores ▸ hroom)).of_next hstep
  rwa [hturn] at hgrows

end Sys2Proof.Proofs
end

section
/-! SUPPORT. A backlog of TX flushed by one TX.START (R143, R151): the engine moves a run, the completion event chains the rest. -/

namespace Sys2Proof.Machine

theorem runSteps_add (a b : Nat) (s : State) : runSteps (a + b) s = andThen (runSteps a s) (runSteps b) := by
  induction a generalizing s with
  | zero => rw [Nat.zero_add]; rfl
  | succ a ih =>
    rw [Nat.succ_add, runSteps, runSteps]
    cases step s with
    | next t => exact ih t
    | fault _ => rfl
    | refused _ => rfl

/-- In `k` steps, in which nothing is enqueued, the machine comes from `s` to `t`, and the turns `l` are then to come. -/
structure DrainsTo (k : Nat) (l : List Turn) (s t : State) : Prop where
  steps : runSteps k s = .next t
  inv : Inv t
  stream : txStream t = txStream s
  cfg : t.cfg = s.cfg
  host : t.host = s.host
  head : t.tx.head = s.tx.head
  sched : t.sched = l

section
variable {s t u : State} {k k' : Nat} {l l' : List Turn}

theorem DrainsTo.refl (h : Inv s) (hsched : s.sched = l) : DrainsTo 0 l s s := ⟨rfl, h, rfl, rfl, rfl, rfl, hsched⟩

theorem DrainsTo.trans (h : DrainsTo k l s t) (h' : DrainsTo k' l' t u) : DrainsTo (k + k') l' s u :=
  ⟨by rw [runSteps_add, h.steps, andThen_next, h'.steps], h'.inv, h'.stream.trans h.stream, h'.cfg.trans h.cfg,
    h'.host.trans h.host, h'.head.trans h.head, h'.sched⟩

/-- A turn in which `HOST` accepts no byte keeps the stream (R142). -/
theorem drainsTo_of_step {turn : Turn} (h : Inv s) (hsched : s.sched = turn :: l) (hreset : turn ≠ .reset)
    (hnone : acceptedByTurn turn s = []) (hnostore : enqueueStores turn s = false) (hstep : step s = .next t)
    (hcfg : t.cfg = s.cfg) (hhost : t.host = s.host) (hhead : t.tx.head = s.tx.head) (hsched' : t.sched = l) :
    DrainsTo 1 l s t := by
  have hroom : enqueueStores turn s = true → txUnsentCount s ≤ s.cfg.nTx - 1 := fun hstores =>
    absurd (hnostore.symm.trans hstores) nofun
  obtain ⟨hstream, -⟩ := Proofs.transmitKeepsEnqueueOrder s t turn l h hsched hreset hroom hstep
  rw [hnone, List.append_nil] at hstream
  exact ⟨by rw [runSteps, hstep]; rfl, (step_keepsInv h).of_next hstep, hstream, hcfg, hhost, hhead, hsched'⟩

/-! ### The engine and the handler -/

/-- The engine moves the bytes in flight, one in each turn (R150). -/
theorem xtxSteps_drain (k : Nat) : ∀ {s : State}, Inv s → s.tx.active = true → s.tx.cnt.toNat = k →
    s.sched = List.replicate k Turn.xtx ++ l →
    ∃ t, DrainsTo k l s t ∧ t.tx.active = true ∧ t.tx.cnt.toNat = 0 ∧ t.tx.tail = s.tx.tail := by
  induction k with
  | zero =>
    intro s h hactive hcnt hsched
    exact ⟨s, .refl h hsched, hactive, hcnt, rfl⟩
  | succ k ih =>
    intro s h hactive hcnt hsched
    have hpos : 0 < s.tx.cnt.toNat := hcnt ▸ Nat.succ_pos k
    have hstep := step_xtx_sends h hsched hactive hpos
    have hfirst := drainsTo_of_step h hsched nofun rfl rfl hstep rfl rfl rfl rfl
    have hcnt' : (txSent (s.setSched (List.replicate k Turn.xtx ++ l))).tx.cnt.toNat = k :=
      (txSent_cnt (s := s.setSched (List.replicate k Turn.xtx ++ l)) hpos).trans (congrArg Nat.pred hcnt)
    obtain ⟨t, hrest, hactive', hzero, htail⟩ := ih hfirst.inv hactive hcnt' hfirst.sched
    exact ⟨t, Nat.add_comm 1 k ▸ hfirst.trans hrest, hactive', hzero, htail⟩

/-- When the last byte has moved the completion is pending (R29(c)). -/
theorem Inv.tc_of_drained (h : Inv s) (hactive : s.tx.active = true) (hcnt : s.tx.cnt.toNat = 0) : s.tx.tc = true := by
  obtain ⟨-, -, -, -, -, hflags, -, hok⟩ := h
  obtain ⟨-, -, hrunning, -⟩ := hflags (outsideTxStart_of_active hok hactive)
  by_contra htc
  have hpos := hrunning hactive (Bool.eq_false_of_not_eq_true htc)
  omega

/-- A run transferred to its end, and the completion event, with no byte resident: the channel is Idle (R149). -/
theorem transfer_drains_last (h : Inv s) (hactive : s.tx.active = true)
    (hsched : s.sched = List.replicate s.tx.cnt.toNat Turn.xtx ++ Turn.evt .tx :: l)
    (hempty : cursorDist s.cfg.nTx s.tx.head.toNat s.tx.tail.toNat = 0) :
    ∃ t, DrainsTo (s.tx.cnt.toNat + 1) l s t ∧ t.tx.active = false ∧ t.tx.tail = s.tx.tail := by
  obtain ⟨t, hdrain, hactive', hcnt, htail⟩ := xtxSteps_drain _ h hactive rfl hsched
  have htc := hdrain.inv.tc_of_drained hactive' hcnt
  rw [← hdrain.cfg, ← hdrain.head, ← htail] at hempty
  have hstep : step t = .next ((txAcknowledge (t.setSched l)).answer .ok 0#16) := by
    rw [step_turn hdrain.sched, takeTurn, present_txEvt, execTxEvt_eq]
    exact (if_pos htc).trans (if_pos hempty)
  exact ⟨_, hdrain.trans (drainsTo_of_step hdrain.inv hdrain.sched nofun rfl rfl hstep rfl rfl rfl rfl), rfl, htail⟩

/-- With bytes resident, the next run is started (R149). -/
theorem transfer_drains_chained (h : Inv s) (hactive : s.tx.active = true)
    (hsched : s.sched = List.replicate s.tx.cnt.toNat Turn.xtx ++ Turn.evt .tx :: l)
    (hsome : cursorDist s.cfg.nTx s.tx.head.toNat s.tx.tail.toNat ≠ 0) :
    ∃ t, DrainsTo (s.tx.cnt.toNat + 1) l s t ∧ t.tx.active = true ∧ RunCommitted s t := by
  obtain ⟨t, hdrain, hactive', hcnt, htail⟩ := xtxSteps_drain _ h hactive rfl hsched
  obtain ⟨hcfg, -, htx, -⟩ := id hdrain.inv
  have htc := hdrain.inv.tc_of_drained hactive' hcnt
  rw [← hdrain.cfg, ← hdrain.head, ← htail] at hsome
  have hstep : step t = .next ((txStarted (txAcknowledge (t.setSched l))).answer .ok 0#16) := by
    rw [step_turn hdrain.sched, takeTurn, present_txEvt, execTxEvt_eq]
    exact (if_pos htc).trans (if_neg hsome)
  have hrun := txStarted_committed (s := txAcknowledge (t.setSched l)) hcfg htx
  refine ⟨_, hdrain.trans (drainsTo_of_step hdrain.inv hdrain.sched nofun rfl rfl hstep rfl rfl rfl rfl), rfl, ?_⟩
  exact (hrun.congr hdrain.cfg hdrain.head htail).answer _ _

/-- The completion event of an Idle channel is spurious (R149). -/
theorem spuriousEvt_drains (h : Inv s) (htc : s.tx.tc = false) (hsched : s.sched = .evt .tx :: l) :
    DrainsTo 1 l s ((s.setSched l).answer .fail 0#16) := by
  have hstep : step s = .next ((s.setSched l).answer .fail 0#16) := by
    rw [step_turn hsched, takeTurn, present_txEvt, execTxEvt_eq]
    exact if_neg (by simp [htc])
  exact drainsTo_of_step h hsched nofun rfl rfl hstep rfl rfl rfl rfl

/-! ### From `TX.START` to an empty channel -/

theorem txStart_drains {ws : List Cmd} (h : Inv s) (hidle : s.host = .idle) (hinactive : s.tx.active = false)
    (hsome : s.tx.head ≠ s.tx.tail) (hprog : s.program = encode .txStart :: ws) (hsched : s.sched = .hostOp :: l) :
    ∃ t, DrainsTo 1 l s t ∧ t.tx.active = true ∧ RunCommitted s t := by
  obtain ⟨hcfg, -, htx, -⟩ := id h
  obtain ⟨-, htail, -⟩ := id htx
  have hbytes := mt (cursorDist_eq_zero htail).1 hsome
  have hstep : step s = .next ((txStarted ((s.setSched l).setProgram ws)).answer .ok 0#16) := by
    rw [Proofs.stepRunsTheDecodedCommand s _ ws l .txStart hsched hidle hprog rfl, exec_txStart_eq]
    exact (if_neg (by simp [hinactive])).trans (if_neg hbytes)
  have hnone : acceptedByOperation s = [] := by
    simp only [acceptedByOperation, hidle, hprog]
    rfl
  have hnostore : enqueueStores .hostOp s = false := by simp [enqueueStores, hnone]
  have hrun := txStarted_committed (s := (s.setSched l).setProgram ws) hcfg htx
  have hdrain := drainsTo_of_step h hsched nofun hnone hnostore hstep rfl rfl rfl rfl
  have hrun' : RunCommitted s (txStarted ((s.setSched l).setProgram ws)) := hrun.congr rfl rfl rfl
  exact ⟨_, hdrain, rfl, hrun'.answer _ _⟩

/-- What is left behind a run is one run: it is empty, or it starts at index 0 (R126(d)). -/
theorem run_behind_run {n h t : Nat} (hh : h < n) (ht : t < n) :
    run n h ((t + run n h t) % n) = cursorDist n h ((t + run n h t) % n) := by
  have hle := run_le_cursorDist n h t
  rw [cursorDist_advance_tail hh ht hle]
  by_cases hwrap : run n h t < cursorDist n h t
  · obtain ⟨-, hstart, hrest⟩ := run_of_wrapped hh ht hwrap
    rw [hstart, hrest]
  · have hrest := run_le_cursorDist n h ((t + run n h t) % n)
    rw [cursorDist_advance_tail hh ht hle] at hrest
    omega

/-- From an active transfer behind which one run is left: either none is, and the second completion event is spurious, or the first
one chains it. -/
theorem transfers_drain (h : Inv s) (hidle : s.host = .idle) (hactive : s.tx.active = true)
    (hone : run s.cfg.nTx s.tx.head.toNat s.tx.tail.toNat = cursorDist s.cfg.nTx s.tx.head.toNat s.tx.tail.toNat)
    (hsched : s.sched = List.replicate s.tx.cnt.toNat Turn.xtx ++ Turn.evt .tx ::
      (List.replicate (cursorDist s.cfg.nTx s.tx.head.toNat s.tx.tail.toNat) Turn.xtx ++ [Turn.evt .tx])) :
    ∃ t, DrainsTo (s.tx.cnt.toNat + cursorDist s.cfg.nTx s.tx.head.toNat s.tx.tail.toNat + 2) [] s t ∧ t.tx.active = false ∧
      cursorDist s.cfg.nTx t.tx.head.toNat t.tx.tail.toNat = 0 := by
  obtain ⟨-, -, htx, -⟩ := id h
  by_cases hempty : cursorDist s.cfg.nTx s.tx.head.toNat s.tx.tail.toNat = 0
  · obtain ⟨t, hdrain, hinactive, htail⟩ := transfer_drains_last h hactive hsched hempty
    obtain ⟨-, -, -, -, -, hflags, -⟩ := id hdrain.inv
    obtain ⟨-, hstopped, -⟩ := hflags (by rw [hdrain.host, hidle]; rfl)
    obtain ⟨htc, -⟩ := hstopped hinactive
    have hlast := hdrain.sched
    rw [hempty] at hlast ⊢
    have hspurious := spuriousEvt_drains hdrain.inv htc hlast
    refine ⟨_, hdrain.trans hspurious, hinactive, ?_⟩
    show cursorDist s.cfg.nTx t.tx.head.toNat t.tx.tail.toNat = 0
    rw [hdrain.head, htail, hempty]
  · obtain ⟨t, hdrain, hactive', hrun⟩ := transfer_drains_chained h hactive hsched hempty
    have hcnt := hrun.cnt.trans hone
    have hdist := hrun.dist htx
    rw [hcnt, Nat.sub_self] at hdist
    have hlast := hdrain.sched
    rw [← hcnt] at hlast ⊢
    obtain ⟨u, hdrain', hinactive, htail⟩ := transfer_drains_last hdrain.inv hactive' hlast (by rw [hdrain.cfg]; exact hdist)
    refine ⟨u, ?_, hinactive, by rw [hdrain'.head, htail]; exact hdist⟩
    have hcount : s.tx.cnt.toNat + 1 + (t.tx.cnt.toNat + 1) = s.tx.cnt.toNat + t.tx.cnt.toNat + 2 := by omega
    exact hcount ▸ hdrain.trans hdrain'

/-- Idle and empty, the channel has sent all there was to send. -/
theorem DrainsTo.all_sent (h : DrainsTo k l s t) (hout : outsideTxStart s.host = true) (hinactive : t.tx.active = false)
    (hempty : t.tx.head = t.tx.tail) : t.txOut = txStream s ∧ t.tx.tc = false := by
  obtain ⟨-, -, ⟨-, htail, -⟩, -, -, hflags, -⟩ := id h.inv
  replace hout : outsideTxStart t.host = true := by rw [h.host, hout]
  obtain ⟨-, hstopped, -⟩ := id (hflags hout)
  obtain ⟨htc, -⟩ := hstopped hinactive
  have hunsent : txUnsent t = [] := by
    rw [txUnsent_committed (runStillResident_of_outside hout), (hflags hout).inFlight_nil hinactive,
      txResident_nil ((cursorDist_eq_zero htail).2 hempty), List.append_nil]
  refine ⟨?_, htc⟩
  rw [← h.stream, txStream, hunsent, List.append_nil]

end

end Sys2Proof.Machine

namespace Sys2Proof.Proofs
open Sys2Proof.Machine

/-- Settles O28: `TX.START` commits the first run (`txStart_drains`), what is left behind it is one run (`run_behind_run`), and the
turns of the engine and the handler drain both (`transfers_drain`); the order is that of O27. -/
theorem oneStartFlushesTheBacklog : Obligations.OneStartFlushesTheBacklog := by
  intro s ws hinv hidle hinactive hsome hprog hsched
  obtain ⟨-, -, htx, -, -, hflags, -⟩ := id hinv
  obtain ⟨hhead, htail, -⟩ := id htx
  have hout : outsideTxStart s.host = true := by rw [hidle]; rfl
  have hle := run_le_cursorDist s.cfg.nTx s.tx.head.toNat s.tx.tail.toNat
  obtain ⟨t, hstart, hactive, hrun⟩ := txStart_drains hinv hidle hinactive hsome hprog hsched
  have hone : run t.cfg.nTx t.tx.head.toNat t.tx.tail.toNat = cursorDist t.cfg.nTx t.tx.head.toNat t.tx.tail.toNat := by
    rw [hstart.cfg, hrun.head, hrun.tail, hrun.cnt]
    exact run_behind_run hhead htail
  have hdist := hrun.dist htx
  have hturns := hstart.sched
  rw [← hrun.cnt, ← hdist, ← hstart.cfg] at hturns
  obtain ⟨u, hrest, hinactive', hempty⟩ := transfers_drain hstart.inv (hstart.host.trans hidle) hactive hone hturns
  have hdrain := hstart.trans hrest
  obtain ⟨-, -, ⟨-, htail', -⟩, -⟩ := id hdrain.inv
  rw [hstart.cfg, ← hdrain.cfg] at hempty
  have hend : u.tx.head = u.tx.tail := (cursorDist_eq_zero htail').1 hempty
  obtain ⟨hsent, htc⟩ := hdrain.all_sent hout hinactive' hend
  have hcount : 1 + (t.tx.cnt.toNat + cursorDist t.cfg.nTx t.tx.head.toNat t.tx.tail.toNat + 2) =
      cursorDist s.cfg.nTx s.tx.head.toNat s.tx.tail.toNat + 3 := by
    rw [hstart.cfg, hdist, hrun.cnt]
    omega
  have hsteps := hdrain.steps
  rw [hcount, ← core_run_eq] at hsteps
  refine ⟨u, hsteps, ?_, hinactive', htc, hdrain.head, hend.symm.trans hdrain.head, hdrain.sched⟩
  rw [hsent, txStream, txUnsent_committed (runStillResident_of_outside hout), (hflags hout).inFlight_nil hinactive,
    List.nil_append]

end Sys2Proof.Proofs
end

section
/-! SUPPORT. Unit RX (R161 to R170): the index the engine writes next stands for the head the unit does not store. A received byte
advances it as a push does `RB.head`, a read advances `RX.tail`, and `RX.AVAIL` answers the distance of the two. -/

namespace Sys2Proof.Machine

/-! ### The states the operations and the engine of `RX` go on to, before the response -/

/-- The whole buffer is armed, nothing is unread, and the transfer runs (R163). -/
def rxStarted (s : State) : State :=
  s.setRx { s.rx with rem := BitVec.ofNat 16 s.cfg.nRx, tail := 0#16, run := true }

/-- `RX.tail` advances (R166). -/
def rxAdvanced (s : State) : State := s.setRx { s.rx with tail := incCursor s.cfg.nRx s.rx.tail }

/-- The byte is stored at the write index, and the count goes down or is reloaded (R167). -/
def rxReceived (b : Byte) (s : State) : State :=
  s.setRx { s.rx with mem := s.rx.mem.write (rxWriteIndex s.cfg.nRx s.rx.rem) b, rem := rxCountStep s.cfg.nRx s.rx.rem }

section
variable {s : State}

/-! ### The write index -/

theorem rxWriteIndex_lt (hrx : RxOk s) : rxWriteIndex s.cfg.nRx s.rx.rem < s.cfg.nRx := by
  obtain ⟨-, hrem, hmax, -⟩ := hrx
  unfold rxWriteIndex
  omega

/-- `RX.AVAIL` counts from `RX.tail` to the write index, which is its own remainder (R161). -/
theorem rxCount_eq (hrx : RxOk s) :
    rxCount s = cursorDist s.cfg.nRx (rxWriteIndex s.cfg.nRx s.rx.rem) s.rx.tail.toNat := by
  obtain ⟨-, hrem, hmax, -⟩ := hrx
  rw [rxCount, vhead_eq hrem hmax, rxWriteIndex]

theorem rxCount_lt (hrx : RxOk s) : rxCount s < s.cfg.nRx := by
  obtain ⟨htail, -⟩ := id hrx
  rw [rxCount_eq hrx]
  exact cursorDist_lt (rxWriteIndex_lt hrx) htail

theorem rxCountStep_toNat {n : Nat} {rem : Cursor} (hn : n ≤ 65535) (hrem : 1 ≤ rem.toNat) :
    (rxCountStep n rem).toNat = if rem.toNat = 1 then n else rem.toNat - 1 := by
  have hlast : rem = 1#16 ↔ rem.toNat = 1 := BitVec.toNat_inj.symm
  unfold rxCountStep
  split
  · rw [if_pos (hlast.1 ‹_›), cursor_toNat (by omega)]
  · rw [if_neg (mt hlast.2 ‹_›)]
    bv_omega

/-- Counting `RX.rem` down, or reloading it, advances the write index as a cursor (R33(c), R167). -/
theorem rxWriteIndex_countStep {n : Nat} {rem : Cursor} (hn : n ≤ 65535) (hrem : 1 ≤ rem.toNat) (hmax : rem.toNat ≤ n) :
    rxWriteIndex n (rxCountStep n rem) = inc n (rxWriteIndex n rem) := by
  unfold rxWriteIndex inc
  rw [rxCountStep_toNat hn hrem]
  split <;> split <;> omega

/-! ### What the operations and the engine do -/

theorem exec_rxStart_stopped (hstopped : s.rx.run = false) : exec .rxStart s = .next ((rxStarted s).answer .ok 0#16) :=
  execRxStart_stopped hstopped

theorem exec_rxRead (hrx : RxOk s) :
    exec .rxRead s = .next ((rxAdvanced s).answer .ok (byteValue (byteAt s .rx s.rx.tail.toNat))) := by
  obtain ⟨htail, -⟩ := hrx
  exact execRxRead_eq htail

theorem exec_rxAvail (s : State) : exec .rxAvail s = .next (s.answer .ok (BitVec.ofNat 16 (rxCount s))) := rfl

/-- The count fits the value field of the response. -/
theorem rxAvail_value_toNat (hcfg : s.cfg.Valid) (hrx : RxOk s) : (BitVec.ofNat 16 (rxCount s)).toNat = rxCount s := by
  obtain ⟨-, -, ⟨-, hn⟩, -⟩ := hcfg
  have hlt := rxCount_lt hrx
  exact cursor_toNat (by omega)

theorem xrxStep_receives {b : Byte} {bs : List Byte} (hrx : RxOk s) (hrun : s.rx.run = true) (hin : s.rxIn = b :: bs) :
    xrxStep s = .next (rxReceived b (s.setRxIn bs)) :=
  xrxStep_enabled hrun hin (rxWriteIndex_lt hrx)

theorem rxAct_receive (b : Byte) (hrx : RxOk s) (hrun : s.rx.run = true) :
    rxAct (.receive b) s = .next (rxReceived b s) := by
  rw [rxAct, xrxStep_receives (s := s.setRxIn [b]) hrx hrun rfl]
  rfl

/-! ### The registers and bytes in those states -/

theorem rxStarted_rem (hcfg : s.cfg.Valid) : (rxStarted s).rx.rem.toNat = s.cfg.nRx := by
  obtain ⟨-, -, ⟨-, hn⟩, -⟩ := hcfg
  exact cursor_toNat (by omega)

theorem rxStarted_ok (hcfg : s.cfg.Valid) (hrx : RxOk s) : RxOk (rxStarted s) := by
  obtain ⟨hrem, hmax⟩ := rxFullCount hcfg
  obtain ⟨-, -, ⟨hn, -⟩, -⟩ := hcfg
  obtain ⟨-, -, -, hmem⟩ := hrx
  exact ⟨Nat.lt_of_lt_of_le Nat.zero_lt_two hn, hrem, hmax, hmem⟩

theorem rxAdvanced_tail (hcfg : s.cfg.Valid) (hrx : RxOk s) :
    (rxAdvanced s).rx.tail.toNat = inc s.cfg.nRx s.rx.tail.toNat := by
  obtain ⟨-, -, ⟨-, hn⟩, -⟩ := hcfg
  obtain ⟨htail, -⟩ := hrx
  exact incCursor_toNat hn htail

theorem rxAdvanced_ok (hcfg : s.cfg.Valid) (hrx : RxOk s) : RxOk (rxAdvanced s) := by
  obtain ⟨-, -, ⟨-, hn⟩, -⟩ := hcfg
  obtain ⟨htail, hrem, hmax, hmem⟩ := hrx
  exact ⟨incCursor_lt hn htail, hrem, hmax, hmem⟩

theorem byteAt_rxAdvanced (w : MemId) (j : Nat) : byteAt (rxAdvanced s) w j = byteAt s w j := byteAt_setRx rfl w j

theorem rxReceived_rem (b : Byte) (hcfg : s.cfg.Valid) (hrx : RxOk s) :
    (rxReceived b s).rx.rem.toNat = if s.rx.rem.toNat = 1 then s.cfg.nRx else s.rx.rem.toNat - 1 := by
  obtain ⟨-, -, ⟨-, hn⟩, -⟩ := hcfg
  obtain ⟨-, hrem, -⟩ := hrx
  exact rxCountStep_toNat hn hrem

theorem rxReceived_writeIndex (b : Byte) (hcfg : s.cfg.Valid) (hrx : RxOk s) :
    rxWriteIndex s.cfg.nRx (rxReceived b s).rx.rem = inc s.cfg.nRx (rxWriteIndex s.cfg.nRx s.rx.rem) := by
  obtain ⟨-, -, ⟨-, hn⟩, -⟩ := hcfg
  obtain ⟨-, hrem, hmax, -⟩ := hrx
  exact rxWriteIndex_countStep hn hrem hmax

theorem rxReceived_ok (b : Byte) (hcfg : s.cfg.Valid) (hrx : RxOk s) : RxOk (rxReceived b s) := by
  have hindex := rxWriteIndex_lt hrx
  obtain ⟨htail, hrem, hmax, hmem⟩ := hrx
  obtain ⟨hrem', hmax'⟩ := rxCountStep_bounds hcfg hrem hmax
  exact ⟨htail, hrem', hmax', Memory.write_wf b hmem hindex⟩

/-- The engine stores one byte. -/
theorem byteAt_rxReceived (b : Byte) (w : MemId) (j : Nat) :
    byteAt (rxReceived b s) w j = if w = .rx ∧ j = rxWriteIndex s.cfg.nRx s.rx.rem then b else byteAt s w j := by
  have hregisters : byteAt (rxReceived b s) w j =
      byteAt (s.setMem .rx (s.rx.mem.write (rxWriteIndex s.cfg.nRx s.rx.rem) b)) w j :=
    byteAt_setRx (s := s.setMem .rx (s.rx.mem.write (rxWriteIndex s.cfg.nRx s.rx.rem) b)) rfl w j
  exact hregisters.trans (byteAt_store s .rx _ b w j)

theorem byteAt_rxReceived_writeIndex (b : Byte) :
    byteAt (rxReceived b s) .rx (rxWriteIndex s.cfg.nRx s.rx.rem) = b :=
  (byteAt_rxReceived b _ _).trans (if_pos ⟨rfl, rfl⟩)

theorem rxReceived_bytesSameBut (b : Byte) : BytesSameBut .rx (rxWriteIndex s.cfg.nRx s.rx.rem) s (rxReceived b s) :=
  fun _ _ hother => (byteAt_rxReceived b _ _).trans (if_neg hother)

/-! ### The count and the unread bytes -/

theorem rxCount_rxAdvanced (hcfg : s.cfg.Valid) (hrx : RxOk s) :
    rxCount (rxAdvanced s) =
      cursorDist s.cfg.nRx (rxWriteIndex s.cfg.nRx s.rx.rem) (inc s.cfg.nRx s.rx.tail.toNat) := by
  rw [← rxAdvanced_tail hcfg hrx]
  exact rxCount_eq (rxAdvanced_ok hcfg hrx)

/-- A read of an empty buffer makes it read as full (R166). -/
theorem rxCount_rxAdvanced_of_empty (hcfg : s.cfg.Valid) (hrx : RxOk s) (hempty : rxCount s = 0) :
    rxCount (rxAdvanced s) = s.cfg.nRx - 1 := by
  obtain ⟨htail, -⟩ := id hrx
  rw [rxCount_eq hrx] at hempty
  rw [rxCount_rxAdvanced hcfg hrx, (eq_iff_cursorDist_eq_zero htail).2 hempty]
  exact cursorDist_inc_self htail

/-- A received byte is put behind the unread ones, as long as it does not overrun them (R162). -/
theorem rxUnread_rxReceived (b : Byte) (hcfg : s.cfg.Valid) (hrx : RxOk s) (hroom : rxCount s < s.cfg.nRx - 1) :
    rxUnread (rxReceived b s) = rxUnread s ++ [b] := by
  have hindex := rxWriteIndex_lt hrx
  have hcount := rxCount_eq hrx
  have hcount' : rxCount (rxReceived b s) =
      cursorDist s.cfg.nRx (inc s.cfg.nRx (rxWriteIndex s.cfg.nRx s.rx.rem)) s.rx.tail.toNat := by
    rw [← rxReceived_writeIndex b hcfg hrx]
    exact rxCount_eq (rxReceived_ok b hcfg hrx)
  obtain ⟨htail, -⟩ := hrx
  rw [hcount] at hroom
  calc rxUnread (rxReceived b s)
      = ringBytes (rxReceived b s) .rx s.cfg.nRx s.rx.tail.toNat
          (cursorDist s.cfg.nRx (inc s.cfg.nRx (rxWriteIndex s.cfg.nRx s.rx.rem)) s.rx.tail.toNat) := by
        rw [← hcount']; rfl
    _ = rxUnread s ++ [byteAt (rxReceived b s) .rx (rxWriteIndex s.cfg.nRx s.rx.rem)] := by
        rw [rxUnread, hcount]
        exact ringBytes_inc_head hindex htail hroom (rxReceived_bytesSameBut b)
    _ = rxUnread s ++ [b] := by rw [byteAt_rxReceived_writeIndex]

/-- A read takes the oldest unread byte (R162, R166). -/
theorem rxUnread_eq_cons (hcfg : s.cfg.Valid) (hrx : RxOk s) (hbyte : 0 < rxCount s) :
    rxUnread s = byteAt s .rx s.rx.tail.toNat :: rxUnread (rxAdvanced s) := by
  have hindex := rxWriteIndex_lt hrx
  have hcount := rxCount_eq hrx
  have hadvanced : rxUnread (rxAdvanced s) = ringBytes s .rx s.cfg.nRx (inc s.cfg.nRx s.rx.tail.toNat)
      (cursorDist s.cfg.nRx (rxWriteIndex s.cfg.nRx s.rx.rem) (inc s.cfg.nRx s.rx.tail.toNat)) := by
    rw [← rxCount_rxAdvanced hcfg hrx, ← rxAdvanced_tail hcfg hrx]
    exact ringBytes_congr fun k _ => byteAt_rxAdvanced _ _
  obtain ⟨htail, -⟩ := hrx
  rw [hcount] at hbyte
  rw [hadvanced, rxUnread, hcount]
  exact ringBytes_inc_tail s .rx hindex htail hbyte

/-! ### Bytes received and reads issued since `RX.START` -/

/-- In `s`, with parameters `c`, `RX` runs, and since `RX.START` it has received `w` bytes and given `r`: the write index and the
read index are where that many advances from 0 lead (R33(c), R168). -/
structure RxAfter (c : Config) (w r : Nat) (s : State) : Prop where
  cfg : s.cfg = c
  ok : RxOk s
  running : s.rx.run = true
  head : rxWriteIndex c.nRx s.rx.rem = w % c.nRx
  tail : s.rx.tail.toNat = r % c.nRx

variable {cfg : Config} {w r : Nat}

theorem RxAfter.answer (h : RxAfter cfg w r s) (st : Status) (v : BitVec 16) : RxAfter cfg w r (s.answer st v) :=
  ⟨h.cfg, h.ok, h.running, h.head, h.tail⟩

theorem rxAfter_rxStarted (hcfg : s.cfg.Valid) (hrx : RxOk s) : RxAfter s.cfg 0 0 (rxStarted s) where
  cfg := rfl
  ok := rxStarted_ok hcfg hrx
  running := rfl
  head := by rw [rxWriteIndex, rxStarted_rem hcfg, Nat.sub_self, Nat.zero_mod]
  tail := (Nat.zero_mod _).symm

theorem RxAfter.received (b : Byte) (hcfg : cfg.Valid) (h : RxAfter cfg w r s) : RxAfter cfg (w + 1) r (rxReceived b s) := by
  obtain ⟨rfl, hrx, hrun, hhead, htail⟩ := h
  refine ⟨rfl, rxReceived_ok b hcfg hrx, hrun, ?_, htail⟩
  rw [rxReceived_writeIndex b hcfg hrx, inc_eq_mod (rxWriteIndex_lt hrx), hhead, Nat.mod_add_mod]

theorem RxAfter.advanced (hcfg : cfg.Valid) (h : RxAfter cfg w r s) : RxAfter cfg w (r + 1) (rxAdvanced s) := by
  obtain ⟨rfl, hrx, hrun, hhead, htail⟩ := h
  refine ⟨rfl, rxAdvanced_ok hcfg hrx, hrun, hhead, ?_⟩
  obtain ⟨hlt, -⟩ := id hrx
  rw [rxAdvanced_tail hcfg hrx, inc_eq_mod hlt, htail, Nat.mod_add_mod]

theorem rxWritten_receive (b : Byte) (as : List RxAct) : rxWritten (.receive b :: as) = rxWritten as + 1 :=
  List.countP_cons_of_pos rfl

theorem rxRead_receive (b : Byte) (as : List RxAct) : rxRead (.receive b :: as) = rxRead as := List.countP_cons_of_neg nofun

theorem rxWritten_read (as : List RxAct) : rxWritten (.read :: as) = rxWritten as := List.countP_cons_of_neg nofun

theorem rxRead_read (as : List RxAct) : rxRead (.read :: as) = rxRead as + 1 := List.countP_cons_of_pos rfl

/-- A running `RX` never stops, and keeps the two counts, in whatever order bytes arrive and are read. -/
theorem rxActs_after (hcfg : cfg.Valid) (as : List RxAct) : ∀ {s : State} {w r : Nat}, RxAfter cfg w r s →
    ∃ t, rxActs as s = .next t ∧ RxAfter cfg (w + rxWritten as) (r + rxRead as) t := by
  induction as with
  | nil => exact fun {s _ _} h => ⟨s, rfl, h⟩
  | cons a as ih =>
    intro s w r h
    cases a with
    | receive b =>
      rw [rxActs, rxAct_receive b h.ok h.running, rxWritten_receive, rxRead_receive, Nat.add_comm _ 1, ← Nat.add_assoc]
      exact ih (h.received b hcfg)
    | read =>
      rw [rxActs, rxAct, exec_rxRead h.ok, rxWritten_read, rxRead_read, Nat.add_comm _ 1, ← Nat.add_assoc]
      exact ih ((h.advanced hcfg).answer _ _)

theorem RxAfter.rem (h : RxAfter cfg w r s) : s.rx.rem.toNat = cfg.nRx - w % cfg.nRx := by
  obtain ⟨rfl, ⟨-, -, hmax, -⟩, -, hhead, -⟩ := h
  rw [← hhead, rxWriteIndex, Nat.sub_sub_self hmax]

/-- The count is the difference of bytes received and reads, modulo `N` (R168). -/
theorem RxAfter.count (h : RxAfter cfg w r s) : (rxCount s : Int) = ((w : Int) - r) % cfg.nRx := by
  obtain ⟨rfl, hrx, -, hhead, htail⟩ := h
  obtain ⟨hlt, -⟩ := id hrx
  rw [rxCount_eq hrx, cursorDist_eq_emod (rxWriteIndex_lt hrx) hlt, hhead, htail, Int.natCast_emod, Int.natCast_emod,
    ← Int.sub_emod]

end

end Sys2Proof.Machine

namespace Sys2Proof.Proofs
open Sys2Proof.Machine

/-- Settles O32: from Stopped `rxStarted`, while Running the refusal of U3. -/
theorem rxStartArmsTheWholeBuffer : Obligations.RxStartArmsTheWholeBuffer := by
  intro s hcfg
  refine ⟨fun hstopped => ?stopped, execRxStart_running⟩
  case stopped =>
    exact ⟨_, exec_rxStart_stopped hstopped, onlyUnit_answer (onlyUnit_setRx _) _ _, byteAt_setRx rfl, rfl, rxStarted_rem hcfg,
      rfl, rfl⟩

/-- Settles O33: one register is written. -/
theorem rxStopOnlyClearsRun : Obligations.RxStopOnlyClearsRun := fun _ =>
  ⟨_, rfl, onlyUnit_answer (onlyUnit_setRx _) _ _, byteAt_setRx rfl, rfl, rfl, rfl, rfl⟩

/-- Settles O34: the virtual head is the write index, and the count is below `N`. -/
theorem rxAvailIsTheVirtualHeadDistance : Obligations.RxAvailIsTheVirtualHeadDistance := by
  intro s hcfg hrx
  obtain ⟨htail, hrem, hmax, -⟩ := id hrx
  obtain ⟨t, hexec, honly, hbytes, hanswers⟩ := answersOnly (exec_rxAvail s)
  have hvalue := rxAvail_value_toNat hcfg hrx
  have hdist : (rxCount s : Int) = ((s.cfg.nRx : Int) - s.rx.rem.toNat - s.rx.tail.toNat) % s.cfg.nRx := by
    rw [rxCount_eq hrx, cursorDist_eq_emod (rxWriteIndex_lt hrx) htail, rxWriteIndex, Int.ofNat_sub hmax]
  have hle := Nat.le_sub_one_of_lt (rxCount_lt hrx)
  rw [← hvalue] at hdist hle
  exact ⟨vhead_eq hrem hmax, t, _, hexec, honly, hbytes, hanswers, hvalue, hdist, hle⟩

/-- Settles O35: `rxAdvanced`, whatever the count. -/
theorem rxReadNeverFails : Obligations.RxReadNeverFails := by
  refine ⟨rfl, fun s hcfg hrx => ?_⟩
  exact ⟨_, exec_rxRead hrx, onlyUnit_answer (onlyUnit_setRx _) _ _, byteAt_rxAdvanced, rfl, rxAdvanced_tail hcfg hrx, rfl, rfl,
    rxCount_rxAdvanced_of_empty hcfg hrx⟩

/-- Settles O36: the turn is the engine's step, which goes on to `rxReceived`. -/
theorem xrxStoresOneByte : Obligations.XrxStoresOneByte := by
  intro s b bs rest hinv hsched hrun hin
  obtain ⟨hcfg, -, -, hrx, -⟩ := hinv
  have hstep : step s = .next (rxReceived b ((s.setSched rest).setRxIn bs)) :=
    (step_turn hsched).trans (xrxStep_receives (s := s.setSched rest) hrx hrun hin)
  refine ⟨_, hstep, rfl, byteAt_rxReceived_writeIndex (s := (s.setSched rest).setRxIn bs) b, fun u j hother => ?_,
    rxReceived_rem (s := (s.setSched rest).setRxIn bs) b hcfg hrx, rfl, hrun, rfl, rfl, rfl, rfl, rfl, rfl, rfl, rfl, rfl, rfl,
    rfl, rfl⟩
  have hsame := rxReceived_bytesSameBut (s := (s.setSched rest).setRxIn bs) b u j hother
  rw [hsame, byteAt_setRxIn, byteAt_setSched]

/-- Settles O37: the write index and `RX.tail` count the bytes received and the reads modulo `N` (`rxActs_after`), and `RX.AVAIL`
answers their distance. -/
theorem rxAvailCountsReceivedMinusRead : Obligations.RxAvailCountsReceivedMinusRead := by
  intro s as hcfg hrx hstopped
  obtain ⟨t, hacts, ht⟩ := rxActs_after hcfg as ((rxAfter_rxStarted hcfg hrx).answer .ok 0#16)
  rw [Nat.zero_add, Nat.zero_add] at ht
  have hvalue : (BitVec.ofNat 16 (rxCount t)).toNat = rxCount t := rxAvail_value_toNat (ht.cfg ▸ hcfg) ht.ok
  have hcount := ht.count
  refine ⟨_, t, _, _, exec_rxStart_stopped hstopped, hacts, exec_rxAvail t, rfl, ht.rem, ht.tail, ?_, fun hunread hfew => ?_⟩
  · rw [hvalue, hcount]
  · rw [hunread, Int.emod_eq_of_lt (by omega) (by omega)] at hcount
    omega

/-- Settles O38: the producer and the consumer law on the unread bytes. -/
theorem rxKeepsReceiveOrder : Obligations.RxKeepsReceiveOrder := by
  intro s hcfg hrx
  refine ⟨fun b hrun hroom => ?receive, fun v q hunread => ?read⟩
  case receive => exact ⟨_, rxAct_receive b hrx hrun, rxUnread_rxReceived b hcfg hrx hroom⟩
  case read =>
    have hlength : rxCount s = q.length + 1 := by
      rw [← List.length_cons, ← hunread, rxUnread, ringBytes_length]
    rw [rxUnread_eq_cons hcfg hrx (by omega)] at hunread
    obtain ⟨rfl, rfl⟩ := List.cons.inj hunread
    exact ⟨_, exec_rxRead hrx, rfl, rfl⟩

end Sys2Proof.Proofs
end

section
/-! SUPPORT. Unit LED (R181 to R192): the states its operations and its engine go on to, and its registers and bytes in them. -/

namespace Sys2Proof.Machine

/-! ### The states the operations and the engine of `LED` go on to, before the response -/

/-- `CODE0` is stored at every index (R187). -/
def ledCleared (s : State) : State := ledStoreRun 0 (List.replicate s.cfg.frameBytes s.cfg.code0) s

/-- The 24 codes of the colour are stored at LED `idx` (R188). -/
def ledWritten (idx : BitVec 16) (c : Colour) (s : State) : State :=
  ledStoreRun (ledIndex idx.toNat 0) (colourCodes s.cfg c) s

/-- The whole buffer is armed and started, and the frame is marked (R189). -/
def ledStarted (s : State) : State :=
  (s.setLed { s.led with inflight := true, pos := 0#21, cnt := BitVec.ofNat 21 s.cfg.frameBytes, genEn := true,
                         xferEn := true }).emitLed .frame

/-- The code at `LED.pos` is one pulse, and the descriptor moves by one (R192). -/
def ledSent (s : State) : State :=
  ((s.emitLed (.pulse (byteAt s .led s.led.pos.toNat))).setLed
    (ledDescriptorStep (Config.freePhase s.draws) s.led)).countDraw

section
variable {s : State}

/-! ### What the operations do -/

theorem exec_ledClear (s : State) : exec .ledClear s = .next ((ledCleared s).answer .ok 0#16) := rfl

theorem exec_ledWrite {idx : BitVec 16} (c : Colour) (hidx : idx.toNat < s.cfg.stripLength) :
    exec (.ledWrite idx c) s = .next ((ledWritten idx c s).answer .ok 0#16) := if_pos hidx

theorem exec_ledUpdate_idle (hcfg : s.cfg.Valid) (hidle : s.led.inflight = false) :
    exec .ledUpdate s = .next ((ledStarted s).answer .ok 0#16) := by
  have hsize : s.cfg.frameBytes ≠ 0 := Nat.one_le_iff_ne_zero.1 (frameBytes_bounds hcfg).1
  have hstarts : ledUpdateStarts s = true := by simp [ledUpdateStarts, hidle, hsize]
  exact (execLedUpdate_eq s).trans (if_pos hstarts)

theorem exec_ledUpdate_inflight (hinflight : s.led.inflight = true) :
    exec .ledUpdate s = .next (s.answer .ok 0#16) := by
  have hdrops : ¬ ledUpdateStarts s = true := by simp [ledUpdateStarts, hinflight]
  exact (execLedUpdate_eq s).trans (if_neg hdrops)

theorem exec_ledEvt_spurious (htc : s.led.tc = false) : exec .ledEvt s = .next (s.answer .fail 0#16) :=
  (execLedEvt_eq s).trans (if_neg (by simp [htc]))

theorem exec_ledEvt_qualifying (htc : s.led.tc = true) :
    exec .ledEvt s = .next ((ledAcknowledge s).answer .ok 0#16) :=
  (execLedEvt_eq s).trans (if_pos htc)

/-! ### The encode buffer filled -/

/-- From `s` to `t` an operation has written no register of `LED` and no mark of `LED.out`, and has answered `Ok` (R187, R188). -/
structure OnlyCodesStored (s t : State) : Prop where
  unit : OnlyLed s t
  marks : t.ledOut = s.ledOut
  answers : Answers s t .ok 0#16
  registers : t.led.inflight = s.led.inflight ∧ t.led.tc = s.led.tc ∧ t.led.xferEn = s.led.xferEn ∧
    t.led.genEn = s.led.genEn ∧ t.led.phase = s.led.phase ∧ t.led.pos = s.led.pos ∧ t.led.cnt = s.led.cnt

theorem ledStoreRun_onlyCodesStored (base : Nat) (codes : List Byte) (s : State) :
    OnlyCodesStored s ((ledStoreRun base codes s).answer .ok 0#16) where
  unit := onlyUnit_answer (onlyUnit_setLed _) _ _
  marks := rfl
  answers := rfl
  registers := ⟨rfl, rfl, rfl, rfl, rfl, rfl, rfl⟩

theorem byteAt_ledCleared_inside {i : Nat} (hi : i < s.cfg.frameBytes) : byteAt (ledCleared s) .led i = s.cfg.code0 := by
  have hrun : (MemId.led = .led) ∧ 0 ≤ i ∧ i < 0 + (List.replicate s.cfg.frameBytes s.cfg.code0).length := by
    rw [List.length_replicate, Nat.zero_add]
    exact ⟨rfl, Nat.zero_le i, hi⟩
  rw [ledCleared, ledStoreRun, byteAt_ledStoreRun, if_pos hrun, Nat.sub_zero, List.getD_replicate _ hi]

theorem byteAt_ledCleared_outside {w : MemId} {j : Nat} (hother : ¬ (w = .led ∧ j < s.cfg.frameBytes)) :
    byteAt (ledCleared s) w j = byteAt s w j := by
  rw [ledCleared, ledStoreRun, byteAt_ledStoreRun, List.length_replicate, Nat.zero_add]
  exact if_neg fun ⟨hw, _, hj⟩ => hother ⟨hw, hj⟩

theorem byteAt_ledWritten_inside (idx : BitVec 16) (c : Colour) {b : Nat} (hb : b < 24) :
    byteAt (ledWritten idx c s) .led (24 * idx.toNat + b) = colourCode s.cfg c b := by
  rw [ledWritten, ledStoreRun, byteAt_ledStoreRun, colourCodes_length, ledIndex, if_pos ⟨rfl, by omega, by omega⟩,
    Nat.add_zero, Nat.add_sub_cancel_left]
  simp [colourCodes, hb]

theorem byteAt_ledWritten_outside (idx : BitVec 16) (c : Colour) {w : MemId} {j : Nat}
    (hother : ¬ (w = .led ∧ 24 * idx.toNat ≤ j ∧ j < 24 * idx.toNat + 24)) :
    byteAt (ledWritten idx c s) w j = byteAt s w j := by
  rw [ledWritten, ledStoreRun, byteAt_ledStoreRun, colourCodes_length]
  exact if_neg hother

/-! ### A frame started -/

theorem ledStarted_cnt (hcfg : s.cfg.Valid) : (ledStarted s).led.cnt.toNat = s.cfg.frameBytes :=
  ledCount_toNat (frameBytes_bounds hcfg).2

theorem byteAt_ledStarted (w : MemId) (j : Nat) : byteAt (ledStarted s) w j = byteAt s w j :=
  (byteAt_emitLed _ _ w j).trans (byteAt_setLed rfl w j)

/-! ### A pulse sent -/

/-- What R40 says of an engine that is enabled: a frame is in flight, the codes sent and those left make up the buffer, and the
completion is pending exactly when none is left. -/
structure FrameRuns (s : State) : Prop where
  inflight : s.led.inflight = true
  genEn : s.led.genEn = true
  place : s.led.pos.toNat + s.led.cnt.toNat = s.cfg.frameBytes
  tc : s.led.tc = true ↔ s.led.cnt = 0#21

theorem Inv.frameRuns (h : Inv s) (hxfer : s.led.xferEn = true) : FrameRuns s := by
  obtain ⟨-, -, -, -, -, -, hflags, hok⟩ := h
  obtain ⟨hdone, hidle, hclaimed, hrunning⟩ := hflags (outsideLedUpdate_of_xferEn hok hxfer)
  have hinflight : s.led.inflight = true := by
    by_contra hc
    obtain ⟨-, -, hoff, -⟩ := hidle (Bool.eq_false_of_not_eq_true hc)
    exact absurd (hoff.symm.trans hxfer) nofun
  obtain ⟨-, hgen, hplace⟩ := hclaimed hinflight
  refine ⟨hinflight, hgen, hplace, fun htc => (hdone htc).2, fun hzero => ?_⟩
  by_contra htc
  have hleft := hrunning hinflight (Bool.eq_false_of_not_eq_true htc)
  simp [hzero] at hleft

/-- While pulses are left `LED.pos` is inside the buffer. -/
theorem FrameRuns.pos_lt (h : FrameRuns s) (hcnt : 0 < s.led.cnt.toNat) : s.led.pos.toNat < s.cfg.frameBytes := by
  have := h.place
  omega

theorem ledSent_pos (hcfg : s.cfg.Valid) (hpos : s.led.pos.toNat < s.cfg.frameBytes) :
    (ledSent s).led.pos.toNat = s.led.pos.toNat + 1 := by
  obtain ⟨-, hsize⟩ := frameBytes_bounds hcfg
  show (s.led.pos + 1#21).toNat = s.led.pos.toNat + 1
  bv_omega

theorem ledSent_cnt (hcnt : 0 < s.led.cnt.toNat) : (ledSent s).led.cnt.toNat = s.led.cnt.toNat - 1 := by
  show (s.led.cnt - 1#21).toNat = s.led.cnt.toNat - 1
  bv_omega

theorem byteAt_ledSent (w : MemId) (j : Nat) : byteAt (ledSent s) w j = byteAt s w j :=
  (byteAt_setLed (s := s.emitLed (.pulse (byteAt s .led s.led.pos.toNat))) rfl w j).trans (byteAt_emitLed s _ w j)

theorem xledStep_sends (h : Inv s) (hxfer : s.led.xferEn = true) (hcnt : 0 < s.led.cnt.toNat) :
    xledStep s = .next (ledSent s) :=
  have hframe := h.frameRuns hxfer
  xledStep_enabled hxfer hframe.genEn hcnt (hframe.pos_lt hcnt)

theorem Inv.ledSent (h : Inv s) (hxfer : s.led.xferEn = true) (hcnt : 0 < s.led.cnt.toNat) : Inv (ledSent s) :=
  (xledStep_keepsInv h).of_next (xledStep_sends h hxfer hcnt)

/-! ### The frame in flight -/

theorem exec_inflight_change {i : Instr} {t : State} (hexec : exec i s = .next t) (hchange : t.led.inflight ≠ s.led.inflight) :
    (s.led.inflight = false ∧ i = .ledUpdate) ∨ (s.led.inflight = true ∧ i = .ledEvt ∧ s.led.tc = true) := by
  obtain ⟨hrows, -⟩ := Proofs.flagsChangeOnlyAsTheTableSays
  obtain ⟨-, -, -, hinflight, -⟩ := hrows s t i hexec
  refine (hinflight hchange).imp_right fun ⟨htransmitting, hevt⟩ => ⟨htransmitting, hevt, ?_⟩
  subst hevt
  by_contra htc
  rw [exec_ledEvt_spurious (Bool.eq_false_of_not_eq_true htc)] at hexec
  cases hexec
  exact hchange rfl

end

end Sys2Proof.Machine

namespace Sys2Proof.Proofs
open Sys2Proof.Machine

/-- Settles O39: `ledCleared`. -/
theorem ledClearFillsWithCode0 : Obligations.LedClearFillsWithCode0 := by
  intro s
  have honly : OnlyCodesStored s ((ledCleared s).answer .ok 0#16) := ledStoreRun_onlyCodesStored _ _ s
  exact ⟨_, exec_ledClear s, honly.unit, honly.marks, honly.answers,
    fun _ hi => (byteAt_answer _ _ _ _ _).trans (byteAt_ledCleared_inside hi),
    fun _ _ hother => (byteAt_answer _ _ _ _ _).trans (byteAt_ledCleared_outside hother), honly.registers⟩

/-- Settles O40: the word is its three fields side by side, and the operation goes on to `ledWritten`. -/
theorem ledWriteStoresTheColour : Obligations.LedWriteStoresTheColour := by
  refine ⟨fun _ _ => rfl, fun s idx c hidx => ?_⟩
  have honly : OnlyCodesStored s ((ledWritten idx c s).answer .ok 0#16) := ledStoreRun_onlyCodesStored _ _ s
  exact ⟨_, exec_ledWrite c hidx, honly.unit, honly.marks, honly.answers,
    fun _ hb => (byteAt_answer _ _ _ _ _).trans (byteAt_ledWritten_inside idx c hb),
    fun _ _ hother => (byteAt_answer _ _ _ _ _).trans (byteAt_ledWritten_outside idx c hother), honly.registers⟩

/-- Settles O42: from Idle `ledStarted`, with a frame in flight the response alone. -/
theorem ledUpdateArmsOrDrops : Obligations.LedUpdateArmsOrDrops := by
  intro s hcfg
  refine ⟨fun hidle => ?idle, fun hinflight => answersOnly (exec_ledUpdate_inflight hinflight)⟩
  case idle =>
    exact ⟨_, exec_ledUpdate_idle hcfg hidle, onlyUnit_answer (onlyUnit_emitLed (onlyUnit_setLed _) _) _ _, byteAt_ledStarted,
      rfl, rfl, rfl, rfl, ledStarted_cnt hcfg, rfl, rfl, rfl, rfl⟩

/-- Settles O43: with no event pending the response alone, else `ledAcknowledge`. -/
theorem ledEvtReturnsToIdle : Obligations.LedEvtReturnsToIdle := by
  intro s
  refine ⟨fun htc => answersOnly (exec_ledEvt_spurious htc), fun htc => ?qualifying⟩
  case qualifying =>
    exact ⟨_, exec_ledEvt_qualifying htc, onlyUnit_answer (onlyUnit_setLed _) _ _, byteAt_setLed rfl, rfl, rfl, rfl, rfl, rfl, rfl,
      rfl, rfl, rfl⟩

/-- Settles O44: the turn is the engine's step, which goes on to `ledSent`; before and after it R40 holds (`Inv.frameRuns`). -/
theorem xledEmitsOnePulse : Obligations.XledEmitsOnePulse := by
  intro s rest hinv hsched hxfer hgen hcnt
  obtain ⟨hcfg, -⟩ := id hinv
  have hpos := (hinv.frameRuns hxfer).pos_lt hcnt
  replace hinv : Inv (s.setSched rest) := hinv
  have hstep : step s = .next (ledSent (s.setSched rest)) := (step_turn hsched).trans (xledStep_sends hinv hxfer hcnt)
  have hcode : byteAt (s.setSched rest) .led s.led.pos.toNat = byteAt s .led s.led.pos.toNat := byteAt_setSched s rest _ _
  have hsent := (hinv.ledSent hxfer hcnt).frameRuns hxfer
  refine ⟨_, hstep, congrArg (fun v => s.ledOut ++ [.pulse v]) hcode, ledSent_pos (s := s.setSched rest) hcfg hpos,
    ledSent_cnt (s := s.setSched rest) hcnt, hsent.tc, rfl, hxfer, hgen, fun u j => ?_, rfl, rfl, rfl, rfl, rfl, rfl, rfl, rfl, rfl,
    rfl, rfl⟩
  exact (byteAt_ledSent u j).trans (byteAt_setSched s rest u j)

/-- Settles O47: only the two operations change `LED.inflight` (`exec_inflight_change`), and each does when its condition holds. -/
theorem ledStateMachine : Obligations.LedStateMachine := by
  intro s t i hcfg hexec
  refine ⟨fun hidle => ⟨fun hstarted => ?starts, fun hi => ?started⟩,
    fun htransmitting => ⟨fun hdone => ?ends, fun ⟨hi, htc⟩ => ?ended⟩, fun htransmitting hi => ?dropped⟩
  case starts =>
    obtain ⟨-, hi⟩ | ⟨hc, -⟩ := exec_inflight_change hexec (by rw [hstarted, hidle]; nofun)
    · exact hi
    · exact absurd (hidle.symm.trans hc) nofun
  case started =>
    subst hi
    rw [exec_ledUpdate_idle hcfg hidle] at hexec
    cases hexec
    rfl
  case ends =>
    obtain ⟨hc, -⟩ | ⟨-, hevt⟩ := exec_inflight_change hexec (by rw [hdone, htransmitting]; nofun)
    · exact absurd (htransmitting.symm.trans hc) nofun
    · exact hevt
  case ended =>
    subst hi
    rw [exec_ledEvt_qualifying htc] at hexec
    cases hexec
    rfl
  case dropped =>
    subst hi
    rw [exec_ledUpdate_inflight htransmitting] at hexec
    cases hexec
    exact onlyAnswers_answer s _ _

end Sys2Proof.Proofs
end

section
/-! SUPPORT. A frame left alone (R183): the codes the engine has still to send, from `LED.UPDATE` to the completion event. -/

namespace Sys2Proof.Machine

/-- The codes of the frame still to be sent, the one at `LED.pos` first. -/
def ledUnsent (s : State) : List Byte := (List.range s.led.cnt.toNat).map fun k => byteAt s .led (s.led.pos.toNat + k)

section
variable {s : State}

theorem ledUnsent_nil (h : s.led.cnt.toNat = 0) : ledUnsent s = [] := by
  rw [ledUnsent, h]; rfl

/-- The engine takes the first of them. -/
theorem ledUnsent_eq_cons (hcfg : s.cfg.Valid) (hcnt : 0 < s.led.cnt.toNat) (hpos : s.led.pos.toNat < s.cfg.frameBytes) :
    ledUnsent s = byteAt s .led s.led.pos.toNat :: ledUnsent (ledSent s) := by
  obtain ⟨count, hcount⟩ := Nat.exists_eq_succ_of_ne_zero hcnt.ne'
  have hcnt' : (ledSent s).led.cnt.toNat = count := by rw [ledSent_cnt hcnt, hcount]; rfl
  simp only [ledUnsent, hcnt', hcount, List.range_succ_eq_map, List.map_cons, List.map_map, ledSent_pos hcfg hpos]
  refine congrArg (_ :: ·) (List.map_congr_left fun k _ => ?_)
  rw [byteAt_ledSent, Nat.add_assoc, Nat.add_comm 1]
  rfl

/-- A frame is started with the whole buffer to send, index 0 first. -/
theorem ledUnsent_ledStarted (hcfg : s.cfg.Valid) : ledUnsent (ledStarted s) = encBytes s := by
  rw [ledUnsent, ledStarted_cnt hcfg, encBytes]
  refine List.map_congr_left fun k _ => ?_
  have hpos : (ledStarted s).led.pos.toNat + k = k := Nat.zero_add k
  rw [hpos, byteAt_ledStarted]

/-- As many steps as there are codes to send send them all, in order, and no pulse is left (R192). -/
theorem engineSteps_sends (k : Nat) : ∀ {s : State}, Inv s → s.led.xferEn = true → s.led.cnt.toNat = k →
    ∃ t, engineSteps xledStep k s = .next t ∧ Inv t ∧ t.led.xferEn = true ∧ t.led.cnt.toNat = 0 ∧
      t.ledOut = s.ledOut ++ (ledUnsent s).map .pulse := by
  induction k with
  | zero =>
    intro s h hxfer hcnt
    exact ⟨s, rfl, h, hxfer, hcnt, by rw [ledUnsent_nil hcnt, List.map_nil, List.append_nil]⟩
  | succ k ih =>
    intro s h hxfer hcnt
    obtain ⟨hcfg, -⟩ := id h
    have hleft : 0 < s.led.cnt.toNat := hcnt ▸ Nat.succ_pos k
    have hcnt' : (ledSent s).led.cnt.toNat = k := (ledSent_cnt hleft).trans (congrArg Nat.pred hcnt)
    obtain ⟨t, hsteps, hinv, hxfer', hzero, hout⟩ := ih (h.ledSent hxfer hleft) hxfer hcnt'
    refine ⟨t, ?_, hinv, hxfer', hzero, ?_⟩
    · rw [engineSteps, xledStep_sends h hxfer hleft, andThen_next, hsteps]
    · have hsent : (ledSent s).ledOut = s.ledOut ++ [.pulse (byteAt s .led s.led.pos.toNat)] := rfl
      rw [hout, hsent, ledUnsent_eq_cons hcfg hleft ((h.frameRuns hxfer).pos_lt hleft), List.map_cons, List.append_assoc,
        List.singleton_append]

end

end Sys2Proof.Machine

namespace Sys2Proof.Proofs
open Sys2Proof.Machine

/-- Settles O45: `LED.UPDATE` arms the whole buffer (`ledUnsent_ledStarted`), the engine sends it (`engineSteps_sends`), and by R40
the event is then pending. -/
theorem frameSendsTheWholeBuffer : Obligations.FrameSendsTheWholeBuffer := by
  intro s hinv hidle hready
  obtain ⟨hcfg, -⟩ := id hinv
  have hupdate := exec_ledUpdate_idle hcfg hready
  have hinv' : Inv ((ledStarted s).answer .ok 0#16) := by
    have hkeeps := exec_keepsInv (s := s) (by rwa [setHost_of_host_eq hidle]) .ledUpdate
    rw [setHost_of_host_eq hidle] at hkeeps
    exact hkeeps.of_next hupdate
  obtain ⟨t, hsteps, hend, hxfer, hcnt, hout⟩ := engineSteps_sends _ hinv' rfl (ledStarted_cnt hcfg)
  have hframe := hend.frameRuns hxfer
  have hzero : t.led.cnt = 0#21 := BitVec.eq_of_toNat_eq hcnt
  have hwhole : t.ledOut = (s.ledOut ++ [.frame]) ++ (encBytes s).map .pulse := by
    rw [hout, ← ledUnsent_ledStarted hcfg]; rfl
  rw [List.append_assoc, List.singleton_append] at hwhole
  exact ⟨_, t, hupdate, hsteps, hwhole, hframe.tc.2 hzero, hzero, hframe.inflight, xledStep_disabled (.inr (.inr hzero))⟩

end Sys2Proof.Proofs
end

section
/-! SUPPORT. What a step stores into the encode buffer is a code (R181). -/

namespace Sys2Proof.Machine

/-- From `s` to `t` each byte of the encode buffer is as it was, or one of the two codes has been stored there. -/
structure StoresOnlyCodes (s t : State) : Prop where
  cfg : t.cfg = s.cfg
  bytes : ∀ i, byteAt t .led i = byteAt s .led i ∨ byteAt t .led i = s.cfg.code0 ∨ byteAt t .led i = s.cfg.code1

theorem colourCode_isCode (cfg : Config) (c : Colour) (b : Nat) :
    colourCode cfg c b = cfg.code0 ∨ colourCode cfg c b = cfg.code1 := by
  unfold colourCode
  split
  · exact .inr rfl
  · exact .inl rfl

section
variable {s t : State}

theorem storesOnlyCodes_of_bytes (hcfg : t.cfg = s.cfg) (h : ∀ i, byteAt t .led i = byteAt s .led i) : StoresOnlyCodes s t :=
  ⟨hcfg, fun i => .inl (h i)⟩

theorem StoresOnlyCodes.refl (s : State) : StoresOnlyCodes s s := storesOnlyCodes_of_bytes rfl fun _ => rfl

theorem StoresOnlyCodes.answer (h : StoresOnlyCodes s t) (st : Status) (v : BitVec 16) : StoresOnlyCodes s (t.answer st v) :=
  ⟨h.cfg, h.bytes⟩

theorem StoresOnlyCodes.setHost (h : StoresOnlyCodes s t) (p : HostPos) : StoresOnlyCodes s (t.setHost p) := ⟨h.cfg, h.bytes⟩

/-- One code stored. -/
theorem storesOnlyCodes_store (i : Nat) {v : Byte} (hv : v = s.cfg.code0 ∨ v = s.cfg.code1) :
    StoresOnlyCodes s (s.setMem .led (s.led.enc.write i v)) := by
  refine ⟨rfl, fun j => ?_⟩
  have hbyte := byteAt_store s .led i v .led j
  split at hbyte
  · exact .inr (hv.imp hbyte.trans hbyte.trans)
  · exact .inl hbyte

/-- Codes stored one after the other. -/
theorem storesOnlyCodes_ledStoreRun (base : Nat) {codes : List Byte}
    (hcodes : ∀ v ∈ codes, v = s.cfg.code0 ∨ v = s.cfg.code1) : StoresOnlyCodes s (ledStoreRun base codes s) := by
  refine ⟨rfl, fun j => ?_⟩
  have hbyte := byteAt_ledStoreRun s base codes .led j
  split at hbyte
  next hrun =>
    obtain ⟨-, hbase, hend⟩ := hrun
    rw [List.getD_eq_getElem _ _ (by omega)] at hbyte
    exact .inr ((hcodes _ (List.getElem_mem _)).imp hbyte.trans hbyte.trans)
  next => exact .inl hbyte

theorem storesOnlyCodes_of_onlyUnit {u : MemId} (hu : u ≠ .led) (h : OnlyUnit u s t) : StoresOnlyCodes s t := by
  refine storesOnlyCodes_of_bytes ?_ (byteAt_of_onlyUnit h hu.symm)
  cases u with
  | rb | tx | rx | led =>
    obtain ⟨⟨hcfg, -⟩, -⟩ := h
    exact hcfg

/-! ### The operations, whole -/

theorem execLedUpdate_storesOnlyCodes (s : State) : LeadsTo (StoresOnlyCodes s) (execLedUpdate s) := by
  rw [execLedUpdate_eq]
  exact leadsTo_ite (fun _ => storesOnlyCodes_of_bytes rfl fun _ => rfl) fun _ => (StoresOnlyCodes.refl s).answer _ _

theorem execLedEvt_storesOnlyCodes (s : State) : LeadsTo (StoresOnlyCodes s) (execLedEvt s) := by
  rw [execLedEvt_eq]
  exact leadsTo_ite (fun _ => storesOnlyCodes_of_bytes rfl fun _ => rfl) fun _ => (StoresOnlyCodes.refl s).answer _ _

theorem ledCleared_storesOnlyCodes (s : State) : StoresOnlyCodes s (ledCleared s) :=
  storesOnlyCodes_ledStoreRun 0 fun _ hv => .inl (List.eq_of_mem_replicate hv)

theorem ledWritten_storesOnlyCodes (idx : BitVec 16) (c : Colour) (s : State) : StoresOnlyCodes s (ledWritten idx c s) := by
  refine storesOnlyCodes_ledStoreRun _ fun v hv => ?_
  obtain ⟨b, -, rfl⟩ := List.mem_map.1 hv
  exact colourCode_isCode s.cfg c b

theorem exec_storesOnlyCodes (i : Instr) (s : State) : LeadsTo (StoresOnlyCodes s) (exec i s) := by
  cases i with
  | ledClear => exact (ledCleared_storesOnlyCodes s).answer _ _
  | ledWrite idx c =>
    exact leadsTo_ite (fun _ => (ledWritten_storesOnlyCodes idx c s).answer _ _) fun _ => (StoresOnlyCodes.refl s).answer _ _
  | ledUpdate => exact execLedUpdate_storesOnlyCodes s
  | ledEvt => exact execLedEvt_storesOnlyCodes s
  | rbPush | rbPop | rbAvail | rbIsEmpty | rbIsFull | txEnq | txStart | txEvt | rxStart | rxStop | rxAvail | rxRead =>
    exact (exec_onlyUnit _ s).imp fun _ => storesOnlyCodes_of_onlyUnit nofun

/-! ### The micro-steps of `HOST` -/

theorem encoderMicro_storesOnlyCodes {pos : Nat → HostPos} {code : Nat → Byte} {base total j : Nat}
    (hcode : code j = s.cfg.code0 ∨ code j = s.cfg.code1) : LeadsTo (StoresOnlyCodes s) (encoderMicro pos code base total j s) :=
  have hstored := storesOnlyCodes_store (base + j) hcode
  leadsTo_store fun _ => leadsTo_ite (fun _ => hstored.setHost _) fun _ => (hstored.setHost _).answer _ _

theorem ledClearMicro_storesOnlyCodes (i : Nat) (s : State) : LeadsTo (StoresOnlyCodes s) (ledClearMicro i s) := by
  by_cases hi : i < s.cfg.frameBytes
  · rw [ledClearMicro_eq hi]
    exact encoderMicro_storesOnlyCodes (.inl rfl)
  · rw [ledClearMicro, if_neg hi]
    exact ((StoresOnlyCodes.refl s).setHost _).answer _ _

theorem ledWriteMicro_storesOnlyCodes (idx : BitVec 16) (c : Colour) (b : Nat) (s : State) :
    LeadsTo (StoresOnlyCodes s) (ledWriteMicro idx c b s) := by
  rw [ledWriteMicro_eq]
  exact encoderMicro_storesOnlyCodes (colourCode_isCode s.cfg c b)

theorem goOn_storesOnlyCodes (p : HostPos) (s : State) : LeadsTo (StoresOnlyCodes s) (goOn p s) :=
  (StoresOnlyCodes.refl s).setHost p

theorem hostBegin_storesOnlyCodes (i : Instr) (s : State) : LeadsTo (StoresOnlyCodes s) (hostBegin i s) := by
  have hanswer (st : Status) : LeadsTo (StoresOnlyCodes s) (answered st 0#16 s) := (StoresOnlyCodes.refl s).answer st _
  cases i with
  | rbPush b =>
    simp only [hostBegin]
    cases rbPushSlot s with
    | none => exact hanswer _
    | some c => exact goOn_storesOnlyCodes _ s
  | rbPop =>
    simp only [hostBegin]
    cases rbPopSlot s with
    | none => trivial
    | some c => exact goOn_storesOnlyCodes _ s
  | txEnq b =>
    simp only [hostBegin]
    cases txEnqSlot s with
    | none => exact hanswer _
    | some c => exact goOn_storesOnlyCodes _ s
  | txStart => exact leadsTo_ite (fun _ => hanswer _) fun _ => goOn_storesOnlyCodes _ s
  | rxStart => exact leadsTo_ite (fun _ => trivial) fun _ => goOn_storesOnlyCodes _ s
  | rxAvail => exact goOn_storesOnlyCodes _ s
  | rxRead =>
    simp only [hostBegin, rxReadLoad]
    exact leadsTo_withByte fun _ _ => goOn_storesOnlyCodes _ s
  | ledClear => exact ledClearMicro_storesOnlyCodes 0 s
  | ledWrite idx c => exact leadsTo_ite (fun _ => ledWriteMicro_storesOnlyCodes idx c 0 s) fun _ => hanswer _
  | ledUpdate => exact leadsTo_ite (fun _ => goOn_storesOnlyCodes _ s) fun _ => hanswer _
  | rbAvail => exact exec_storesOnlyCodes .rbAvail s
  | rbIsEmpty => exact exec_storesOnlyCodes .rbIsEmpty s
  | rbIsFull => exact exec_storesOnlyCodes .rbIsFull s
  | txEvt => exact exec_storesOnlyCodes .txEvt s
  | rxStop => exact exec_storesOnlyCodes .rxStop s
  | ledEvt => exact exec_storesOnlyCodes .ledEvt s

/-- A micro-step inside an operation stores into the encode buffer only in `LED.CLEAR` and `LED.WRITE`. -/
theorem hostMicro_storesOnlyCodes (p : HostPos) (s : State) : LeadsTo (StoresOnlyCodes s) (hostMicro p s) := by
  cases p with
  | rbPushS2 c b => exact leadsTo_store fun _ => storesOnlyCodes_of_bytes rfl fun _ => rfl
  | rbPopS2 c =>
    simp only [hostMicro, rbPopLoad]
    exact leadsTo_withByte fun _ _ => goOn_storesOnlyCodes _ s
  | txEnqS2 c b => exact leadsTo_store fun _ => storesOnlyCodes_of_bytes rfl fun _ => rfl
  | txStartS2 =>
    simp only [hostMicro]
    cases txStartRun s with
    | none => exact ((StoresOnlyCodes.refl s).setHost _).answer _ _
    | some tr => exact goOn_storesOnlyCodes _ s
  | ledClearAt i => exact ledClearMicro_storesOnlyCodes i s
  | ledWriteAt idx c b => exact ledWriteMicro_storesOnlyCodes idx c b s
  | idle | rbPushS3 | rbPopS3 | txEnqS3 | txStartS3 | txStartS4 | txStartS5 | rxStartS2 | rxStartS3 | rxStartS4 | rxAvailS2
  | rxReadS2 | ledUpdateS2 | ledUpdateS3 | ledUpdateS4 | ledUpdateS5 => exact storesOnlyCodes_of_bytes rfl fun _ => rfl

/-! ### The engines and the turns -/

theorem xtxStep_storesOnlyCodes (s : State) : LeadsTo (StoresOnlyCodes s) (xtxStep s) :=
  leadsTo_ite (fun _ => leadsTo_withByte fun _ _ => storesOnlyCodes_of_bytes rfl fun _ => rfl) fun _ => .refl s

theorem xrxStep_storesOnlyCodes (s : State) : LeadsTo (StoresOnlyCodes s) (xrxStep s) := by
  unfold xrxStep
  split
  · exact leadsTo_store fun _ => storesOnlyCodes_of_bytes rfl fun _ => rfl
  · exact StoresOnlyCodes.refl s
  · exact StoresOnlyCodes.refl s

theorem xledStep_storesOnlyCodes (s : State) : LeadsTo (StoresOnlyCodes s) (xledStep s) :=
  leadsTo_ite (fun _ => leadsTo_withByte fun _ _ => storesOnlyCodes_of_bytes rfl fun _ => rfl) fun _ => .refl s

theorem present_storesOnlyCodes (w : Cmd) (s : State) : LeadsTo (StoresOnlyCodes s) (present w s) := by
  unfold present
  cases decode s.cfg w with
  | instr i => exact exec_storesOnlyCodes i s
  | illegal why => exact (StoresOnlyCodes.refl s).answer _ _

theorem presentFirst_storesOnlyCodes (w : Cmd) (s : State) : LeadsTo (StoresOnlyCodes s) (presentFirst w s) := by
  unfold presentFirst
  cases decode s.cfg w with
  | instr i => exact hostBegin_storesOnlyCodes i s
  | illegal why => exact (StoresOnlyCodes.refl s).answer _ _

/-- The word `HOST` takes from its program is no part of the encode buffer. -/
theorem StoresOnlyCodes.of_setProgram {ws : List Cmd} (h : StoresOnlyCodes (s.setProgram ws) t) : StoresOnlyCodes s t :=
  ⟨h.cfg, h.bytes⟩

theorem hostTurn_storesOnlyCodes (s : State) : LeadsTo (StoresOnlyCodes s) (hostTurn s) := by
  by_cases hidle : s.host = .idle
  · cases hprog : s.program with
    | nil => rw [hostTurn_nothing hidle hprog]; exact .refl s
    | cons w ws =>
      rw [hostTurn_idle hidle hprog]
      exact (presentFirst_storesOnlyCodes w _).imp fun _ => .of_setProgram
  · rw [hostTurn_inside hidle]
    exact hostMicro_storesOnlyCodes s.host s

theorem hostOpTurn_storesOnlyCodes (s : State) : LeadsTo (StoresOnlyCodes s) (hostOpTurn s) := by
  by_cases hidle : s.host = .idle
  · cases hprog : s.program with
    | nil => rw [hostOpTurn_nothing hprog]; exact .refl s
    | cons w ws =>
      rw [hostOpTurn_idle hidle hprog]
      exact (present_storesOnlyCodes w _).imp fun _ => .of_setProgram
  · rw [hostOpTurn_inside hidle]
    exact StoresOnlyCodes.refl s

theorem takeTurn_storesOnlyCodes {turn : Turn} (hreset : turn ≠ .reset) (s : State) :
    LeadsTo (StoresOnlyCodes s) (takeTurn turn s) := by
  cases turn with
  | host => exact hostTurn_storesOnlyCodes s
  | hostOp => exact hostOpTurn_storesOnlyCodes s
  | evt e => exact present_storesOnlyCodes (eventWord e) s
  | xtx => exact xtxStep_storesOnlyCodes s
  | xrx => exact xrxStep_storesOnlyCodes s
  | xled => exact xledStep_storesOnlyCodes s
  | supply b => exact storesOnlyCodes_of_bytes rfl fun _ => rfl
  | reset => exact absurd rfl hreset

end

end Sys2Proof.Machine

namespace Sys2Proof.Proofs
open Sys2Proof.Machine

/-- Settles O46, by the agent whose turn it is (`takeTurn_storesOnlyCodes`); the invariant is not needed. -/
theorem encodeBufferHoldsOnlyCodes : Obligations.EncodeBufferHoldsOnlyCodes := by
  intro s t turn rest _ hsched hreset hstep hcodes i hi
  rw [step_turn hsched] at hstep
  have hstores : StoresOnlyCodes (s.setSched rest) t := (takeTurn_storesOnlyCodes hreset _).of_next hstep
  have hcfg : t.cfg = s.cfg := hstores.cfg
  rw [hcfg] at hi ⊢
  obtain hsame | hcode := hstores.bytes i
  · rw [hsame, byteAt_setSched]
    exact hcodes i hi
  · exact hcode

end Sys2Proof.Proofs
end

section
/-! SUPPORT. The status each operation answers with (R94, R202 to R206), and that one which is not `Ok` is all the operation does. -/

namespace Sys2Proof.Machine

/-! ### The status of each operation, and the cases of each status -/

/-- The status an operation answers with where it goes on; `Illegal` where the block does not have it (R100). -/
def statusOf (s : State) : Instr → Status
  | .rbPush _ => if inc s.cfg.nRb s.rb.head.toNat = s.rb.tail.toNat then .outOfMemory else .ok
  | .txEnq _ => if inc s.cfg.nTx s.tx.head.toNat = s.tx.tail.toNat then .outOfMemory else .ok
  | .txStart => if s.tx.active = true then .busy else if s.tx.head = s.tx.tail then .empty else .ok
  | .txEvt => if s.tx.tc = true then .ok else .fail
  | .ledWrite idx _ => if idx.toNat < s.cfg.stripLength then .ok else .illegal
  | .ledEvt => if s.led.tc = true then .ok else .fail
  | .rbPop | .rbAvail | .rbIsEmpty | .rbIsFull | .rxStart | .rxStop | .rxAvail | .rxRead | .ledClear | .ledUpdate => .ok

section
variable {s : State} {i : Instr}

theorem statusOf_ne_timeout : statusOf s i ≠ .timeout := by
  cases i <;> simp [statusOf, ite_eq_iff]

theorem statusOf_eq_busy_iff : statusOf s i = .busy ↔ i = .txStart ∧ s.tx.active = true := by
  cases i <;> simp [statusOf, ite_eq_iff]

theorem statusOf_eq_empty_iff : statusOf s i = .empty ↔ i = .txStart ∧ s.tx.active = false ∧ s.tx.head = s.tx.tail := by
  cases i <;> simp [statusOf, ite_eq_iff]

theorem statusOf_eq_outOfMemory_iff :
    statusOf s i = .outOfMemory ↔
      ((∃ b, i = .rbPush b) ∧ inc s.cfg.nRb s.rb.head.toNat = s.rb.tail.toNat) ∨
      ((∃ b, i = .txEnq b) ∧ inc s.cfg.nTx s.tx.head.toNat = s.tx.tail.toNat) := by
  cases i <;> simp [statusOf, ite_eq_iff]

theorem statusOf_eq_fail_iff :
    statusOf s i = .fail ↔ (i = .txEvt ∧ s.tx.tc = false) ∨ (i = .ledEvt ∧ s.led.tc = false) := by
  cases i <;> simp [statusOf, ite_eq_iff]

end

/-! ### A byte offered to a buffer: refused, or stored and counted -/

theorem execRbPush_eq (b : Byte) (s : State) :
    execRbPush b s =
      if inc s.cfg.nRb s.rb.head.toNat = s.rb.tail.toNat then .next (s.answer .outOfMemory 0#16)
      else andThen (rbPushStore s.rb.head b s) (rbPushAdvance s.rb.head) := by
  split
  next hfull => exact execRbPush_full b hfull
  next hfree => simp [execRbPush, rbPushSlot, (isFull_eq_false _ _ _).2 hfree]

theorem execTxEnq_eq (b : Byte) (s : State) :
    execTxEnq b s =
      if inc s.cfg.nTx s.tx.head.toNat = s.tx.tail.toNat then .next (s.answer .outOfMemory 0#16)
      else andThen (txEnqStore s.tx.head b s) (txEnqAdvance s.tx.head) := by
  split
  next hfull => exact execTxEnq_full b hfull
  next hfree => simp [execTxEnq, txEnqSlot, (isFull_eq_false _ _ _).2 hfree]

/-! ### An operation ends with its status -/

/-- From `s` to `t` an operation has given one response, of the status `st`; one that is not `Ok` has value 0 and is all it has done. -/
def EndsWith (st : Status) (s t : State) : Prop := ∃ v, Answers s t st v ∧ (st ≠ .ok → v = 0#16 ∧ OnlyAnswers s t)

section
variable {s t : State} {st : Status}

theorem endsWith_ok {v : BitVec 16} (ht : t.answers = s.answers) : LeadsTo (EndsWith .ok s) (answered .ok v t) :=
  ⟨v, congrArg (· ++ [response .ok v]) ht, absurd rfl⟩

theorem endsWith_answer (s : State) (st : Status) : LeadsTo (EndsWith st s) (answered st 0#16 s) :=
  ⟨0#16, rfl, fun _ => ⟨rfl, onlyAnswers_answer s st 0#16⟩⟩

theorem EndsWith.answers_iff {other : Status} (h : EndsWith st s t) (hother : other ≠ .ok) :
    Answers s t other 0#16 ↔ st = other := by
  obtain ⟨v, hanswers, honly⟩ := h
  constructor
  · exact hanswers.status_unique
  · rintro rfl
    obtain ⟨rfl, -⟩ := honly hother
    exact hanswers

/-- An operation that begins with a test has the status of the branch it takes. -/
theorem leadsTo_endsWith_ite {c : Prop} [Decidable c] {a b : Result} {st' : Status}
    (ha : c → LeadsTo (EndsWith st s) a) (hb : ¬ c → LeadsTo (EndsWith st' s) b) :
    LeadsTo (EndsWith (if c then st else st') s) (if c then a else b) := by
  split
  · exact ha ‹_›
  · exact hb ‹_›

/-- `TX.START` computes the number of resident bytes; it is 0 exactly when the cursors are equal (R121). -/
theorem execTxStart_endsWith (htx : TxOk s) : LeadsTo (EndsWith (statusOf s .txStart) s) (exec .txStart s) := by
  obtain ⟨-, htail, -⟩ := htx
  simp only [exec_txStart_eq, cursorDist_eq_zero htail]
  exact leadsTo_endsWith_ite (fun _ => endsWith_answer s .busy) fun _ =>
    leadsTo_endsWith_ite (fun _ => endsWith_answer s .empty) fun _ => endsWith_ok rfl

theorem exec_endsWith (i : Instr) (htx : TxOk s) : LeadsTo (EndsWith (statusOf s i) s) (exec i s) := by
  cases i with
  | rbPush b =>
    rw [exec, execRbPush_eq]
    exact leadsTo_endsWith_ite (fun _ => endsWith_answer s .outOfMemory) fun _ => leadsTo_store fun _ => endsWith_ok rfl
  | rbPop =>
    simp only [exec, execRbPop]
    cases rbPopSlot s with
    | none => trivial
    | some c => exact leadsTo_withByte fun _ _ => endsWith_ok rfl
  | txEnq b =>
    rw [exec, execTxEnq_eq]
    exact leadsTo_endsWith_ite (fun _ => endsWith_answer s .outOfMemory) fun _ => leadsTo_store fun _ => endsWith_ok rfl
  | txStart => exact execTxStart_endsWith htx
  | txEvt =>
    exact leadsTo_endsWith_ite (fun _ => endsWith_ok (txStartBody_answers (txAcknowledge s)))
      fun _ => endsWith_answer s .fail
  | rxStart => exact leadsTo_ite (fun _ => trivial) fun _ => endsWith_ok rfl
  | rxRead =>
    simp only [exec, execRxRead, rxReadLoad]
    exact leadsTo_withByte fun _ _ => endsWith_ok rfl
  | ledClear => exact endsWith_ok (ledStoreRun_answers _ _ s)
  | ledWrite idx c =>
    exact leadsTo_endsWith_ite (fun _ => endsWith_ok (ledStoreRun_answers _ _ s)) fun _ => endsWith_answer s .illegal
  | ledUpdate =>
    rw [exec, execLedUpdate_eq]
    exact leadsTo_ite (fun _ => endsWith_ok rfl) fun _ => endsWith_ok rfl
  | ledEvt => exact leadsTo_endsWith_ite (fun _ => endsWith_ok rfl) fun _ => endsWith_answer s .fail
  | rbAvail | rbIsEmpty | rbIsFull | rxStop | rxAvail => exact endsWith_ok rfl

/-- A dropped frame is answered as a started one (R185). -/
theorem execLedUpdate_answersOk (s : State) : LeadsTo (fun t => Answers s t .ok 0#16) (execLedUpdate s) := by
  rw [execLedUpdate_eq]
  exact leadsTo_ite (fun _ => rfl) fun _ => rfl

end

end Sys2Proof.Machine

namespace Sys2Proof.Proofs
open Sys2Proof.Machine

/-- Settles O48: an operation ends with its status (`exec_endsWith`), and each status but `Ok` is that of the cases listed. -/
theorem statusesExactly : Obligations.StatusesExactly := by
  intro s t i _ htx hexec
  have hends : EndsWith (statusOf s i) s t := (exec_endsWith i htx).of_next hexec
  refine ⟨?oneResponse, ?busy, ?empty, ?outOfMemory, ?fail, ?ledUpdate⟩
  case oneResponse =>
    obtain ⟨v, hanswers, honly⟩ := hends
    exact ⟨statusOf s i, v, hanswers, statusOf_ne_timeout, honly⟩
  case busy => exact (hends.answers_iff (by decide)).trans statusOf_eq_busy_iff
  case empty => exact (hends.answers_iff (by decide)).trans statusOf_eq_empty_iff
  case outOfMemory => exact (hends.answers_iff (by decide)).trans statusOf_eq_outOfMemory_iff
  case fail => exact (hends.answers_iff (by decide)).trans statusOf_eq_fail_iff
  case ledUpdate =>
    rintro rfl
    exact (execLedUpdate_answersOk s).of_next hexec

end Sys2Proof.Proofs
end

section
/-! SUPPORT. Two operations of different units in either order (R211): neither writes what the other reads. -/

namespace Sys2Proof.Machine

section
variable {s t : State}

theorem cfg_of_onlyUnit {u : MemId} (h : OnlyUnit u s t) : t.cfg = s.cfg := by
  cases u with
  | rb | tx | rx | led =>
    obtain ⟨⟨hcfg, -⟩, -⟩ := h
    exact hcfg

theorem sameUnit_of_onlyUnit {u w : MemId} (h : OnlyUnit u s t) (hw : w ≠ u) : SameUnit w s t := by
  obtain ⟨hrb, htx, hrx, hled, hepoch⟩ := otherUnits_of_onlyUnit h
  have hcfg : t.cfg = s.cfg := cfg_of_onlyUnit h
  cases w with
  | rb => exact ⟨hcfg, hepoch, hrb hw.symm⟩
  | tx => exact ⟨hcfg, hepoch, htx hw.symm⟩
  | rx => exact ⟨hcfg, hepoch, hrx hw.symm⟩
  | led => exact ⟨hcfg, hepoch, hled hw.symm⟩

/-- An operation leaves its unit the same whether or not another unit has been written before it. -/
theorem exec_after_otherUnit {i : Instr} {u : MemId} {s' t' : State} (hother : OnlyUnit u s s') (hi : unitOf i ≠ u)
    (hexec : exec i s = .next t) (hexec' : exec i s' = .next t') : SameUnit (unitOf i) t t' := by
  have hout := exec_sameOutcome i (sameUnit_of_onlyUnit hother hi)
  rw [hexec, hexec'] at hout
  obtain ⟨hsame, -⟩ := hout
  exact hsame

theorem execLedEvt_ledOut (s : State) : LeadsTo (fun t => t.ledOut = s.ledOut) (execLedEvt s) := by
  rw [execLedEvt_eq]
  exact leadsTo_ite (fun _ => rfl) fun _ => rfl

end

end Sys2Proof.Machine

namespace Sys2Proof.Proofs
open Sys2Proof.Machine

/-- Settles O52: each handler leaves its unit the same before and after the other (`exec_after_otherUnit`), and the rest as it is. -/
theorem eventHandlersCommute : Obligations.EventHandlersCommute := by
  intro s
  obtain ⟨a, hsa, -⟩ := execTxEvt_answers s
  obtain ⟨b, hab, -⟩ := execLedEvt_answers a
  obtain ⟨c, hsc, -⟩ := execLedEvt_answers s
  obtain ⟨d, hcd, -⟩ := execTxEvt_answers c
  have honlya : OnlyTx s a := (exec_onlyUnit .txEvt s).of_next hsa
  have honlyc : OnlyLed s c := (exec_onlyUnit .ledEvt s).of_next hsc
  have honlyb : OnlyLed a b := (exec_onlyUnit .ledEvt a).of_next hab
  have honlyd : OnlyTx c d := (exec_onlyUnit .txEvt c).of_next hcd
  obtain ⟨-, -, htx⟩ : SameUnit .tx a d := exec_after_otherUnit (i := .txEvt) (u := .led) honlyc nofun hsa hcd
  obtain ⟨-, -, hled⟩ : SameUnit .led c b := exec_after_otherUnit (i := .ledEvt) (u := .tx) honlya nofun hsc hab
  have hmarksb : b.ledOut = a.ledOut := (execLedEvt_ledOut a).of_next hab
  have hmarksc : c.ledOut = s.ledOut := (execLedEvt_ledOut s).of_next hsc
  obtain ⟨-, hrba, hrxa, -, houta, hmarksa⟩ := honlya
  obtain ⟨-, hrbb, htxb, hrxb, houtb⟩ := honlyb
  obtain ⟨-, hrbc, -, hrxc, houtc⟩ := honlyc
  obtain ⟨-, hrbd, hrxd, hledd, houtd, hmarksd⟩ := honlyd
  refine ⟨a, b, c, d, hsa, hab, hsc, hcd, ?tx, ?led, ?rb, ?rx, ?txOut, ?ledOut⟩
  case tx => rw [htxb, htx]
  case led => rw [hledd, hled]
  case rb => rw [hrbb, hrba, hrbd, hrbc]
  case rx => rw [hrxb, hrxa, hrxd, hrxc]
  case txOut => rw [houtb, houta, houtd, houtc]
  case ledOut => rw [hmarksb, hmarksa, hmarksd, hmarksc]

end Sys2Proof.Proofs
end

section
/-! SUPPORT. The hazard of TX (R240): the slot a `TX.ENQ` stores into is one still to be sent exactly when `N` or more bytes are unsent. -/

namespace Sys2Proof.Machine

/-- Of `n` slots in a ring, the `c` from `a` up to `t` hold `h` exactly when they and those from `t` up to `h` are `n` or more. -/
theorem mem_run_iff_le_add_cursorDist {n a c t h : Nat} (hh : h < n) (hend : a + c ≤ n) (hplace : (a + c) % n = t) :
    (a ≤ h ∧ h < a + c) ↔ n ≤ c + cursorDist n h t := by
  rcases hend.eq_or_lt with hwrap | hinside
  · rw [hwrap, Nat.mod_self] at hplace
    subst hplace
    unfold cursorDist
    split <;> omega
  · rw [Nat.mod_eq_of_lt hinside] at hplace
    subst hplace
    unfold cursorDist
    split <;> omega

section
variable {s : State}

/-- The unsent bytes fill the slots from `TX.src` round to `TX.head`; with `N` or more they pass `TX.head` (R240). With none in flight they
are at most `N − 1`. -/
theorem head_inFlight_iff (htx : TxOk s) (hflags : TxFlagsOk s) :
    (s.tx.src.toNat ≤ s.tx.head.toNat ∧ s.tx.head.toNat < s.tx.src.toNat + s.tx.cnt.toNat) ↔ s.cfg.nTx ≤ txUnsentCount s := by
  obtain ⟨hhead, htail, -⟩ := htx
  obtain ⟨-, hstopped, -, hplace⟩ := hflags
  unfold txUnsentCount
  cases hactive : s.tx.active with
  | true =>
    obtain ⟨hend, hrun⟩ := hplace hactive
    exact mem_run_iff_le_add_cursorDist hhead hend hrun
  | false =>
    obtain ⟨-, hcnt⟩ := hstopped hactive
    have hzero : s.tx.cnt.toNat = 0 := congrArg BitVec.toNat hcnt
    have hdist := cursorDist_lt hhead htail
    omega

@[simp] theorem txStored_src (b : Byte) : (txStored b s).tx.src = s.tx.src := rfl

@[simp] theorem txStored_cnt (b : Byte) : (txStored b s).tx.cnt = s.tx.cnt := rfl

/-- A byte stored at or behind `TX.src` takes the place of the one in flight at its slot, if there is one. -/
theorem txInFlight_txStored_of_src_le (b : Byte) (hsrc : s.tx.src.toNat ≤ s.tx.head.toNat) :
    txInFlight (txStored b s) = (txInFlight s).set (s.tx.head.toNat - s.tx.src.toNat) b := by
  refine List.ext_getElem (by simp [txInFlight]) fun k _ _ => ?_
  have hslot : s.tx.src.toNat + k = s.tx.head.toNat ↔ s.tx.head.toNat - s.tx.src.toNat = k := by omega
  simp [txInFlight, List.getElem_set, byteAt_txStored, hslot]

/-- What the store of a `TX.ENQ` does to the run in flight, on each side of the hazard (R240). -/
theorem txInFlight_txStored_cases (b : Byte) (htx : TxOk s) (hflags : TxFlagsOk s) :
    (txUnsentCount s ≤ s.cfg.nTx - 1 → txInFlight (txStored b s) = txInFlight s) ∧
    (s.cfg.nTx ≤ txUnsentCount s →
      txInFlight (txStored b s) = (txInFlight s).set (s.tx.head.toNat - s.tx.src.toNat) b) :=
  ⟨txInFlight_txStored b htx hflags, fun hhazard =>
    txInFlight_txStored_of_src_le b ((head_inFlight_iff htx hflags).2 hhazard).1⟩

/-- The micro-step s2 of `TX.ENQ` is the store (R145). -/
theorem step_txEnqS2 {b : Byte} {rest : List Turn} (hhead : s.tx.head.toNat < s.cfg.nTx) (hsched : s.sched = .host :: rest)
    (hp : s.host = .txEnqS2 s.tx.head b) :
    step s = .next ((txStored b (s.setSched rest)).setHost (.txEnqS3 s.tx.head)) := by
  rw [step_host_inside hsched hp nofun, hostMicro, txEnqStore, storeByte_inside (u := .tx) (s := s.setSched rest) b hhead]
  rfl

end

end Sys2Proof.Machine

namespace Sys2Proof.Proofs
open Sys2Proof.Machine

/-- Settles O29: the store is into the run in flight exactly when `N` or more bytes are unsent (`head_inFlight_iff`), and moving `TX.head`
puts its byte behind the resident ones. -/
theorem enqueueOverwritesExactlyWhenUnsentReachesN : Obligations.EnqueueOverwritesExactlyWhenUnsentReachesN := by
  refine ⟨fun s b hinv hout => ⟨fun hfree => ?free, fun hfull => ?full⟩, fun s h b rest hinv hsched hp => ?microStep⟩
  case free =>
    obtain ⟨hcfg, -, htx, -, -, hflags, -⟩ := hinv
    have hresident : txResident (txAdvanced (txStored b s)) = txResident s ++ [b] := by
      rw [txResident_txAdvanced (s := txStored b s) hcfg (txStored_ok b htx) hfree, txResident_txStored b htx]
      exact congrArg (fun v => txResident s ++ [v]) (byteAt_txStored_head b)
    exact ⟨_, exec_txEnq_free b htx hfree, rfl, hresident, head_inFlight_iff htx (hflags hout),
      txInFlight_txStored_cases b htx (hflags hout)⟩
  case full => exact ⟨_, execTxEnq_full b hfull, rfl, rfl, rfl⟩
  case microStep =>
    obtain ⟨-, -, htx, -, -, hflags, -, hok⟩ := hinv
    rw [← setHost_of_host_eq hp] at hok
    obtain ⟨rfl, -⟩ := hostOk_txEnqS2.1 hok
    obtain ⟨hhead, -⟩ := id htx
    exact ⟨_, step_txEnqS2 hhead hsched hp, txResident_txStored (s := s.setSched rest) b htx,
      txInFlight_txStored_cases (s := s.setSched rest) b htx (hflags (by rw [hp]; rfl))⟩

end Sys2Proof.Proofs
end

section
/-! SUPPORT. The units right after reset (R48, R231, R232), for every valid set of parameters. -/

namespace Sys2Proof.Machine

/-- Right after reset neither ring is full: it holds nothing, and `N` is 2 or more. -/
theorem inc_zero_ne_zero {n : Nat} (hn : 2 ≤ n) : inc n 0 ≠ 0 := by
  unfold inc
  split <;> omega

/-- The whole buffer of `RX` is armed, so its write index is 0, where `RX.tail` is (R161). -/
theorem rxCount_resetWith {cfg : Config} (hcfg : cfg.Valid) : rxCount (State.resetWith cfg) = 0 := by
  obtain ⟨-, -, -, hrx, -⟩ := resetWith_inv hcfg
  obtain ⟨-, -, ⟨-, hn⟩, -⟩ := hcfg
  have hrem : (BitVec.ofNat 16 cfg.nRx).toNat = cfg.nRx := cursor_toNat (by omega)
  have hindex : rxWriteIndex cfg.nRx (BitVec.ofNat 16 cfg.nRx) = 0 := by rw [rxWriteIndex, hrem, Nat.sub_self]
  rw [rxCount_eq hrx]
  exact congrArg (cursorDist cfg.nRx · 0) hindex

end Sys2Proof.Machine

namespace Sys2Proof.Proofs
open Sys2Proof.Machine

/-- Settles O54: both rings are empty and not full, nothing is active, pending or in flight, and `RX` is Stopped with nothing unread. -/
theorem firstOperationAfterReset : Obligations.FirstOperationAfterReset := by
  intro cfg hcfg
  obtain ⟨-, hrb, htx, hrx, -⟩ := resetWith_inv hcfg
  obtain ⟨⟨hnRb, -⟩, ⟨hnTx, -⟩, ⟨hnRx, -⟩, -⟩ := id hcfg
  have hrbCount : cursorDist cfg.nRb 0 0 = 0 := (eq_iff_cursorDist_eq_zero (by omega)).1 rfl
  have htxCount : cursorDist cfg.nTx 0 0 = 0 := (eq_iff_cursorDist_eq_zero (by omega)).1 rfl
  have hrbFree := inc_zero_ne_zero hnRb
  have htxFree := inc_zero_ne_zero hnTx
  have htail : (rxAdvanced (State.resetWith cfg)).rx.tail = 1#16 :=
    congrArg (BitVec.ofNat 16) (if_neg (by omega) : inc cfg.nRx 0 = 1)
  refine ⟨?rbAvail, ?rbIsEmpty, ?rbIsFull, fun b => ?rbPush, ?rbPop, fun b => ?txEnq, ?txStart, ?txEvt, ?rxAvail, ?rxRead, ?rxStop,
    ?rxStart, ?ledUpdate, ?ledEvt⟩
  case rbAvail => exact ⟨_, rfl, congrArg (fun d => [response .ok (BitVec.ofNat 16 d)]) hrbCount⟩
  case rbIsEmpty => exact ⟨_, exec_rbIsEmpty _, congrArg (fun v => [response .ok v]) (if_pos rfl)⟩
  case rbIsFull => exact ⟨_, exec_rbIsFull _, congrArg (fun v => [response .ok v]) (if_neg hrbFree)⟩
  case rbPush => exact ⟨_, exec_rbPush_free b hrb hrbFree, rfl⟩
  case rbPop => exact execRbPop_empty (s := State.resetWith cfg) rfl
  case txEnq => exact ⟨_, exec_txEnq_free b htx htxFree, rfl⟩
  case txStart => exact ⟨_, execTxStart_empty nofun (if_pos htxCount), rfl⟩
  case txEvt => exact ⟨_, rfl, rfl⟩
  case rxAvail => exact ⟨_, exec_rxAvail _, by rw [rxCount_resetWith hcfg]; rfl⟩
  case rxRead => exact ⟨_, _, exec_rxRead hrx, rfl, htail⟩
  case rxStop => exact ⟨_, rfl, rfl, rfl⟩
  case rxStart => exact ⟨_, exec_rxStart_stopped rfl, rfl, rfl⟩
  case ledUpdate => exact ⟨_, exec_ledUpdate_idle hcfg rfl, rfl, rfl⟩
  case ledEvt => exact ⟨_, exec_ledEvt_spurious rfl, rfl⟩

end Sys2Proof.Proofs
end
